-- ==== Sys2Proof/Word.lean ====
section
/-!
DEFINITION. The bit vectors of HUFF-CORE, by the widths of spec/00_scope.md rule R9.
-/

namespace Sys2Proof

/-- A 32-bit register, command word, count or tree weight (R9: W_CNT and the host data width). -/
abbrev Word := BitVec 32

/-- A 64-bit statistic: WSUM, INBITS, OUTBITS (R9). -/
abbrev DoubleWord := BitVec 64

/-- A byte of the output stream, and an opcode field. -/
abbrev Byte := BitVec 8

/-- A symbol: "one possible byte value (0–255)" (R14). -/
abbrev Symbol := BitVec 8

/-- The 9-bit argument of a command word (R9, R63). -/
abbrev Arg := BitVec 9

/-- A node index, 0 to 511: a leaf is its symbol, an internal node is 256 + k (R28). -/
abbrev NodeIndex := BitVec 9

/-- A word index of the register window, OFF[7:2] (R47). -/
abbrev RegIndex := BitVec 6

/-- The largest 32-bit value, 2^32 − 1, the bound of TOTAL and ENC_N (R24, R34). -/
def maxWord : Word := 0xFFFFFFFF#32

end Sys2Proof
end

