-- ==== Sys2Proof/Syntax.lean ====
section
/-!
DEFINITION. The ten commands of HUFF-CORE command set version 1, one constructor per row of
spec/opcode_table.json (spec/30_encoding.md rule R65).
-/

namespace Sys2Proof

/-- A legal command word, decoded (R65, R69). -/
inductive Instr where
  /-- NOP (R82). -/
  | nop
  /-- CLEAR (R83). -/
  | clear
  /-- COUNT of a candidate symbol value, 0 to 511 (R92). -/
  | count (arg : Arg)
  /-- READ_FREQ of a candidate symbol value (R94). -/
  | readFreq (arg : Arg)
  /-- BUILD (R98). -/
  | build
  /-- READ_NODE of a node index, 0 to 511 (R102). -/
  | readNode (arg : Arg)
  /-- GENCODES (R105). -/
  | gencodes
  /-- READ_CODE of a candidate symbol value (R107). -/
  | readCode (arg : Arg)
  /-- ENCODE of a candidate symbol value (R111). -/
  | encode (arg : Arg)
  /-- FLUSH (R114). -/
  | flush
  deriving DecidableEq, Repr

end Sys2Proof
end

