-- ==== Sys2Proof/WellFormed.lean ====
section
/-!
DEFINITION. Which command words are legal (spec/30_encoding.md rule R68), as a check on the three fields of
the format CMDW (R63), and which operands the assembler accepts (R72).
-/

namespace Sys2Proof

/-- The fields of a 32-bit command word (R63): OP[7:0], ARG[16:8], RSV[31:17]. -/
structure CommandFields where
  /-- OP, the opcode. -/
  op : Byte
  /-- ARG, the argument. -/
  arg : Arg
  /-- RSV, reserved. -/
  rsv : BitVec 15
  deriving DecidableEq, Repr

/-- R68 (a): OP is one of the ten values of R65. -/
def CommandFields.opKnown (f : CommandFields) : Bool :=
  [0x00#8, 0x01#8, 0x10#8, 0x11#8, 0x20#8, 0x21#8, 0x30#8, 0x31#8, 0x40#8, 0x41#8].contains f.op

/-- R68 (b): RSV = 0. -/
def CommandFields.rsvZero (f : CommandFields) : Bool := f.rsv == 0#15

/-- R67: OP is NOP, CLEAR, BUILD, GENCODES or FLUSH. -/
def CommandFields.takesNoOperand (f : CommandFields) : Bool :=
  [0x00#8, 0x01#8, 0x20#8, 0x30#8, 0x41#8].contains f.op

/-- R68 (c): ARG = 0 whenever OP is a command without operand. -/
def CommandFields.argAllowed (f : CommandFields) : Bool := !f.takesNoOperand || f.arg == 0#9

/-- "A command word is legal iff all three of these hold" (R68). -/
def CommandFields.wellFormed (f : CommandFields) : Bool := f.opKnown && f.rsvZero && f.argAllowed

/-- An assembler operand fits ARG: "An operand above 511 is an assembly error" (R72). -/
def operandFits (n : Nat) : Bool := n ≤ 511

end Sys2Proof
end

