-- ==== Sys2Proof/Decode.lean ====
section
/-!
DEFINITION. Decoding of command words, total on every 32-bit word (spec/30_encoding.md rule R69), the encoder
(R63, R65, R72) and the match and mask table (R70).
-/

namespace Sys2Proof

/-- Cuts a command word into its fields (R63, bit 0 least significant by R10). -/
def CommandFields.ofWord (w : Word) : CommandFields :=
  { op := w.extractLsb' 0 8, arg := w.extractLsb' 8 9, rsv := w.extractLsb' 17 15 }

/-- The command word of three fields (R63). -/
def CommandFields.toWord (f : CommandFields) : Word := f.rsv ++ f.arg ++ f.op

/-- Why a word is an illegal encoding (R68). All three raise ILLEGAL_CMD. -/
inductive Illegal where
  /-- RSV ≠ 0. -/
  | reservedField
  /-- OP is none of the ten values of R65. -/
  | reservedOpcode
  /-- ARG ≠ 0 on NOP, CLEAR, BUILD, GENCODES or FLUSH (R67). -/
  | argumentNotZero
  deriving DecidableEq, Repr

/-- What decode answers (R69). -/
inductive Decoded where
  /-- A legal word, and the one command it decodes to. -/
  | command (i : Instr)
  /-- An illegal encoding, rejected by name. -/
  | illegal (why : Illegal)
  deriving DecidableEq, Repr

/-- A command without operand: legal only with ARG = 0 (R67). -/
def decodeNoOperand (arg : Arg) (i : Instr) : Decoded :=
  if arg = 0#9 then .command i else .illegal .argumentNotZero

/-- decode on the fields, in the order of R69's cases. -/
def decodeFields (f : CommandFields) : Decoded :=
  if f.rsv ≠ 0#15 then .illegal .reservedField
  else if f.op = 0x00#8 then decodeNoOperand f.arg .nop
  else if f.op = 0x01#8 then decodeNoOperand f.arg .clear
  else if f.op = 0x10#8 then .command (.count f.arg)
  else if f.op = 0x11#8 then .command (.readFreq f.arg)
  else if f.op = 0x20#8 then decodeNoOperand f.arg .build
  else if f.op = 0x21#8 then .command (.readNode f.arg)
  else if f.op = 0x30#8 then decodeNoOperand f.arg .gencodes
  else if f.op = 0x31#8 then .command (.readCode f.arg)
  else if f.op = 0x40#8 then .command (.encode f.arg)
  else if f.op = 0x41#8 then decodeNoOperand f.arg .flush
  else .illegal .reservedOpcode

/-- "decode(w) is total on every 32-bit word w" (R69). -/
def decode (w : Word) : Decoded := decodeFields (CommandFields.ofWord w)

/-- The fields of each command's word, from the opcode map of R65. -/
def Instr.fields : Instr → CommandFields
  | .nop => { op := 0x00#8, arg := 0#9, rsv := 0#15 }
  | .clear => { op := 0x01#8, arg := 0#9, rsv := 0#15 }
  | .count a => { op := 0x10#8, arg := a, rsv := 0#15 }
  | .readFreq a => { op := 0x11#8, arg := a, rsv := 0#15 }
  | .build => { op := 0x20#8, arg := 0#9, rsv := 0#15 }
  | .readNode a => { op := 0x21#8, arg := a, rsv := 0#15 }
  | .gencodes => { op := 0x30#8, arg := 0#9, rsv := 0#15 }
  | .readCode a => { op := 0x31#8, arg := a, rsv := 0#15 }
  | .encode a => { op := 0x40#8, arg := a, rsv := 0#15 }
  | .flush => { op := 0x41#8, arg := 0#9, rsv := 0#15 }

/-- The encoded word, "(zext_32(arg) << 8) | op" (R72). -/
def encodeWord (i : Instr) : Word := i.fields.toWord

/-- A row of the match and mask table (R70). -/
structure OpcodeRow where
  /-- The command's mnemonic. -/
  mnemonic : String
  /-- The value the masked word must have. -/
  pattern : Word
  /-- The bits that are compared. -/
  mask : Word
  deriving DecidableEq, Repr

/-- The match and mask values of R70, in the table's order. -/
def opcodeTable : List OpcodeRow :=
  [ { mnemonic := "NOP",       pattern := 0x00000000#32, mask := 0xFFFFFFFF#32 },
    { mnemonic := "CLEAR",     pattern := 0x00000001#32, mask := 0xFFFFFFFF#32 },
    { mnemonic := "COUNT",     pattern := 0x00000010#32, mask := 0xFFFE00FF#32 },
    { mnemonic := "READ_FREQ", pattern := 0x00000011#32, mask := 0xFFFE00FF#32 },
    { mnemonic := "BUILD",     pattern := 0x00000020#32, mask := 0xFFFFFFFF#32 },
    { mnemonic := "READ_NODE", pattern := 0x00000021#32, mask := 0xFFFE00FF#32 },
    { mnemonic := "GENCODES",  pattern := 0x00000030#32, mask := 0xFFFFFFFF#32 },
    { mnemonic := "READ_CODE", pattern := 0x00000031#32, mask := 0xFFFE00FF#32 },
    { mnemonic := "ENCODE",    pattern := 0x00000040#32, mask := 0xFFFE00FF#32 },
    { mnemonic := "FLUSH",     pattern := 0x00000041#32, mask := 0xFFFFFFFF#32 } ]

/-- A row matches a word: (w & mask) == match (R69). -/
def OpcodeRow.matchesWord (r : OpcodeRow) (w : Word) : Bool := w &&& r.mask == r.pattern

/-- The mnemonic of each command (R65). -/
def Instr.mnemonic : Instr → String
  | .nop => "NOP"
  | .clear => "CLEAR"
  | .count _ => "COUNT"
  | .readFreq _ => "READ_FREQ"
  | .build => "BUILD"
  | .readNode _ => "READ_NODE"
  | .gencodes => "GENCODES"
  | .readCode _ => "READ_CODE"
  | .encode _ => "ENCODE"
  | .flush => "FLUSH"

/-- The command this decoder reads from an instruction of the opcode table whose nbits low bits are w and whose
bits above nbits are 0. A command is one 32-bit word (R64), so its bits are the table's. -/
def decodeTableWord (nbits w : Nat) : Option Instr :=
  match decode (BitVec.ofNat 32 (w % 2 ^ nbits)) with
  | .command i => some i
  | .illegal _ => none

end Sys2Proof
end

