-- ==== Sys2Proof/Config.lean ====
section
/-!
DEFINITION. What the spec leaves open: the parameters D_OUT and HUFF_BASE of spec/00_scope.md rule R9 and
spec/20_memory.md rule R47, and the free values of the memory entries whose content is unspecified
(spec/10_state.md rules R28, R33, R44). Nothing in Lean can evaluate a constant declared opaque here.
-/

namespace Sys2Proof

/-- The FIFO depth above its least value (log 3). -/
opaque Config.extraDepth : Fin 3840

/-- D_OUT, the output FIFO depth in bytes: any integer with 256 ≤ D_OUT ≤ 4095 (R9, log 3). -/
def Config.dOut : Nat := Config.extraDepth.val + 256

/-- HUFF_BASE, the window's base address in the host's address space (R47, log 4). No rule depends on it. -/
opaque Config.huffBase : Nat

/-- Unspecified NODE contents (R28, R44, log 7): field W of entry k, at the given count of free values. -/
opaque Config.freeNodeW : Nat → Nat → Word

/-- Unspecified NODE contents: field L. -/
opaque Config.freeNodeL : Nat → Nat → NodeIndex

/-- Unspecified NODE contents: field R. -/
opaque Config.freeNodeR : Nat → Nat → NodeIndex

/-- Unspecified CODE contents (R33, R44, log 7) of symbol s, at the given count of free values. -/
opaque Config.freeBits : Nat → Nat → List Bool

/-- An unspecified CODE entry is still "a bit string of at most 255 bits" (R33). -/
def Config.freeCode (count s : Nat) : List Bool := (Config.freeBits count s).take 255

end Sys2Proof
end

