-- ==== Sys2Proof/Machine/State.lean ====
section
/-!
DEFINITION. The state of HUFF-CORE as plain data: every register, field and internal memory of
spec/10_state.md, the host's side of the port (spec/00_scope.md rule R7), and State.reset (rule R44).
-/

namespace Sys2Proof.Machine

/-- The persisted output form: CTRL.FMT, ENC_FMT and PEND.FMT (R18). -/
inductive Format where
  /-- 0: 8 code bits per byte. -/
  | packed
  /-- 1: one ASCII '0' or '1' byte per code bit. -/
  | textual
  deriving DecidableEq, Repr

/-- PHASE, how far the current run has got (R20). -/
inductive Phase where
  /-- 0: pass 1. -/
  | count
  /-- 1: the tree exists. -/
  | built
  /-- 2: the code table exists. -/
  | coded
  /-- 3: pass 2 in progress. -/
  | encoding
  /-- 4: pass 2 finished. -/
  | done
  /-- 7: a core error ended the run. -/
  | error
  deriving DecidableEq, Repr

/-- ERR.CODE (R23, R123). The reserved codes 7 to 15 are never written. -/
inductive ErrorCode where
  /-- 0: no error in this run. -/
  | none
  /-- 1: BUILD with NSYM = 0. -/
  | emptyInput
  /-- 2: ENCODE of a symbol with no code. -/
  | unknownSymbol
  /-- 3: a legal command outside its phases. -/
  | sequence
  /-- 4: an illegal command word. -/
  | illegalCmd
  /-- 5: a CMD write other than CLEAR while BUSY = 1. -/
  | cmdWhileBusy
  /-- 6: COUNT or ENCODE past 2^32 − 1. -/
  | countOverflow
  deriving DecidableEq, Repr

/-- PEND.OP: "OP is one of BUILD, GENCODES, ENCODE or FLUSH" (R22). -/
inductive DeferredOp where
  | build
  | gencodes
  | encode
  | flush
  deriving DecidableEq, Repr

/-- PEND, the record of the one accepted deferred command (R22). -/
structure Pending where
  /-- PEND.OP. -/
  op : DeferredOp
  /-- PEND.ARG. -/
  arg : Arg
  /-- PEND.FMT, CTRL.FMT as sampled at acceptance. -/
  fmt : Format
  deriving DecidableEq, Repr

/-- One internal entry of NODE (R28). -/
structure NodeEntry where
  /-- W, the weight. -/
  weight : Word
  /-- L, the left child's node index. -/
  left : NodeIndex
  /-- R, the right child's node index. -/
  right : NodeIndex
  deriving DecidableEq, Repr

/-- A host access statement of a listing (R73). COUNTS, ENCODES, PREP and the command statements expand to these. -/
inductive HostOp where
  /-- WR: one host write of a value to a register. -/
  | wr (reg : RegIndex) (value : Word)
  /-- RD: one host read of a register. -/
  | rd (reg : RegIndex)
  /-- WAIT: STATUS reads until one returns BUSY = 0. -/
  | wait
  /-- DRAIN: OUT_DATA reads until one returns VALID = 0. -/
  | drain
  deriving DecidableEq, Repr

/-- Which agent takes the next step of the total order of R56, or a reset (R139). -/
inductive Turn where
  /-- The host makes its next access. -/
  | host
  /-- The engine takes its completion step, if one is enabled. -/
  | engine
  /-- The reset input is applied. -/
  | reset
  deriving DecidableEq, Repr

/-- All state of the block (R15 to R44), the host's side of the port, and the model's own turns and counter. -/
structure State where
  /-- CTRL.FMT (R18). -/
  fmt : Format
  /-- PHASE (R20). -/
  phase : Phase
  /-- BUSY and PEND: BUSY = 1 iff a command is pending (R22, log 8). -/
  pend : Option Pending
  /-- ERR.CODE (R23). -/
  errCode : ErrorCode
  /-- ERR_CMD (R23). -/
  errCmd : Word
  /-- FREQ, by symbol (R26). -/
  freq : Vector Word 256
  /-- TOTAL (R24). -/
  total : Word
  /-- NSYM (R25). -/
  nsym : BitVec 9
  /-- TREE_V (R27). -/
  treeV : Bool
  /-- ROOT.INDEX (R27). -/
  root : NodeIndex
  /-- NODE[256 + k], by k (R28). -/
  node : Vector NodeEntry 255
  /-- CODES_V (R30). -/
  codesV : Bool
  /-- MAXLEN.LEN (R30). -/
  maxLen : BitVec 8
  /-- WSUM (R31). -/
  wsum : DoubleWord
  /-- LEN, by symbol (R32). -/
  len : Vector (BitVec 8) 256
  /-- CODE, by symbol, first bit first (R33, R12). -/
  code : Vector (List Bool) 256
  /-- ENC_FMT (R40). -/
  encFmt : Format
  /-- ACC (R39). -/
  acc : Byte
  /-- ACC_N (R39). -/
  accN : BitVec 3
  /-- ENC_N (R34). -/
  encN : Word
  /-- OUTBITS (R36). -/
  outBits : DoubleWord
  /-- The output FIFO, head first (R37). -/
  fifo : List Byte
  /-- RES0 to RES8 (R41). -/
  res : Vector Word 9
  /-- The model's own count of free values taken (log 7). -/
  free : Nat
  /-- The host's accesses still to make, in order (R73, log 1). -/
  prog : List HostOp
  /-- The value the last host read returned (R52, R73, log 12). -/
  readData : Word
  /-- The bytes the host has read from OUT_DATA in the current run, in order (R88, log 12). -/
  outRead : List Byte
  /-- Who moves next, in order (R56, log 2). -/
  turns : List Turn
  deriving DecidableEq, Repr

/-- Why a step could end in a fault. There is no such reason: host accesses never raise an error (R75, R76) and
every error of R123 is state the block goes on with (R128). Safe: no step stops. -/
inductive Fault where
  deriving DecidableEq, Repr

/-- Why a step could be refused. -/
inductive Refusal where
  /-- Raised by exec's arm of an instruction that has no meaning yet. No arm raises it: every command of
  spec/opcode_table.json has its meaning. Safe: the machine stops. -/
  | notModelled (mnemonic : String)
  deriving DecidableEq, Repr

/-- What a step or a meaning answers. -/
abbrev Result := Host.Outcome State Fault Refusal

/-- "Reset … gives every piece of state this value" (R44). NODE and CODE are unspecified there and not observable:
they hold the values of logs 5 and 6. The host's listing and the turns are empty (logs 1 and 2). -/
def State.reset : State :=
  { fmt := .packed
    phase := .count
    pend := none
    errCode := .none
    errCmd := 0#32
    freq := Vector.replicate 256 0#32
    total := 0#32
    nsym := 0#9
    treeV := false
    root := 0#9
    node := Vector.replicate 255 { weight := 0#32, left := 0#9, right := 0#9 }
    codesV := false
    maxLen := 0#8
    wsum := 0#64
    len := Vector.replicate 256 0#8
    code := Vector.replicate 256 []
    encFmt := .packed
    acc := 0#8
    accN := 0#3
    encN := 0#32
    outBits := 0#64
    fifo := []
    res := Vector.replicate 9 0#32
    free := 0
    prog := []
    readData := 0#32
    outRead := []
    turns := [] }

end Sys2Proof.Machine
end

