-- ==== Sys2Proof/Machine/Operands.lean ====
section
/-!
DEFINITION. What the operands of commands name: symbols and node indices (spec/30_encoding.md rule R66), the
entries of FREQ, NODE, LEN and CODE they select (spec/10_state.md rules R26 to R33), and the encodings of the
state's enumerations (rules R18, R20, R123).
-/

namespace Sys2Proof.Machine

/-- "ARG ≤ 255 names symbol ARG[7:0]. ARG from 256 to 511 names a value outside the 256-symbol alphabet" (R66). -/
def argSymbol (a : Arg) : Option Symbol := if a.toNat ≤ 255 then some (a.setWidth 8) else none

/-- ARG[7:0], the symbol of a command whose precheck has shown ARG ≤ 255 (R111). -/
def argLow (a : Arg) : Symbol := a.setWidth 8

/-- The 256 symbol values, ascending (R91). -/
def allSymbols : List Symbol := (List.range 256).map (BitVec.ofNat 8)

/-- The leaf of a symbol: "A leaf has index s, its symbol value" (R28). -/
def leafIndex (y : Symbol) : NodeIndex := y.setWidth 9

/-- The index 256 + k of the (k+1)-th merge's node (R28). -/
def internalIndex (k : Nat) : NodeIndex := BitVec.ofNat 9 (256 + k)

/-- FREQ[s] (R26). -/
def State.freqAt (s : State) (y : Symbol) : Word := s.freq[y.toNat]'(y.isLt)

/-- FREQ[s] <- v (R26). -/
def State.setFreq (s : State) (y : Symbol) (v : Word) : State :=
  { s with freq := s.freq.set y.toNat v (y.isLt) }

/-- LEN[s] (R32). -/
def State.lenAt (s : State) (y : Symbol) : BitVec 8 := s.len[y.toNat]'(y.isLt)

/-- CODE[s], the stored bit string (R33). -/
def State.codeAt (s : State) (y : Symbol) : List Bool := s.code[y.toNat]'(y.isLt)

/-- CODE[s][i] (R33). Past the stored string, where no reachable state reads, the bit is 0 (log 9). -/
def State.codeBit (s : State) (y : Symbol) (i : Nat) : Bool := (s.codeAt y).getD i false

/-- CODE[s][0] to CODE[s][LEN[s]−1], the code of a symbol (R33): exactly LEN[s] bits. -/
def State.codeBits (s : State) (y : Symbol) : List Bool :=
  (List.range (s.lenAt y).toNat).map (s.codeBit y)

/-- NODE[n] for an internal index 256 to 510 (R28). A leaf has no entry (R29) and "Index 511 never names a node". -/
def State.nodeAt (s : State) (n : NodeIndex) : Option NodeEntry :=
  if n.toNat < 256 then none else s.node[n.toNat - 256]?

/-- The 1-bit encoding of a format (R18). -/
def Format.bit : Format → BitVec 1
  | .packed => 0#1
  | .textual => 1#1

/-- The format a bit selects: "Every value of FMT is legal" (R18). -/
def Format.ofBit (b : Bool) : Format := if b then .textual else .packed

/-- STATUS.PHASE's encoding (R20). The values 5 and 6 are never taken. -/
def Phase.bits : Phase → BitVec 3
  | .count => 0#3
  | .built => 1#3
  | .coded => 2#3
  | .encoding => 3#3
  | .done => 4#3
  | .error => 7#3

/-- ERR.CODE's encoding (R123). -/
def ErrorCode.bits : ErrorCode → BitVec 4
  | .none => 0#4
  | .emptyInput => 1#4
  | .unknownSymbol => 2#4
  | .sequence => 3#4
  | .illegalCmd => 4#4
  | .cmdWhileBusy => 5#4
  | .countOverflow => 6#4

/-- A big-endian number of bits: the first bit is the most significant (R49, R107). -/
def bitsToNat (bs : List Bool) : Nat := bs.foldl (fun v b => 2 * v + b.toNat) 0

end Sys2Proof.Machine
end

