-- ==== Sys2Proof/Machine/Flags.lean ====
section
/-!
DEFINITION. The flags and status fields, each a function of other state (spec/10_state.md rules R21, R35, R42),
the FIFO space condition (spec/44_encoder.md rule R117), and the tests of command acceptance
(spec/40_host_port.md rules R78, R79; spec/30_encoding.md rule R68).
-/

namespace Sys2Proof.Machine

/-- BUSY: a deferred command is accepted and not yet completed (R22). -/
def State.busy (s : State) : Bool := s.pend.isSome

/-- ERRF: "1 iff ERR.CODE ≠ 0" (R21). -/
def State.errf (s : State) : Bool := s.errCode != .none

/-- SINGLE: "1 iff TREE_V = 1 and NSYM = 1" (R21). -/
def State.single (s : State) : Bool := s.treeV && s.nsym == 1#9

/-- OUT_LEVEL, the number of bytes in the output FIFO (R21). -/
def State.outLevel (s : State) : Nat := s.fifo.length

/-- The form a pending ENCODE or FLUSH emits in: "ENC_FMT when PHASE = ENCODING, and PEND.FMT when PHASE = CODED"
(R117, R40). -/
def State.runFormat (s : State) (p : Pending) : Format :=
  if s.phase = .coded then p.fmt else s.encFmt

/-- need(ENCODE a) and need(FLUSH): the number of bytes the completion step pushes (R117). -/
def State.bytesNeeded (s : State) (p : Pending) : Nat :=
  match p.op with
  | .build => 0
  | .gencodes => 0
  | .encode =>
    match s.runFormat p with
    | .packed => (s.accN.toNat + (s.lenAt (argLow p.arg)).toNat) / 8
    | .textual => (s.lenAt (argLow p.arg)).toNat
  | .flush => if s.runFormat p = .packed ∧ 0 < s.accN.toNat then 1 else 0

/-- The FIFO space condition D_OUT − OUT_LEVEL ≥ need (R117). -/
def State.hasRoom (s : State) (p : Pending) : Bool := s.outLevel + s.bytesNeeded p ≤ Config.dOut

/-- The completion condition: true for BUILD and GENCODES, the FIFO space condition for ENCODE and FLUSH (R81). -/
def State.completionEnabled (s : State) (p : Pending) : Bool :=
  match p.op with
  | .build => true
  | .gencodes => true
  | .encode => s.hasRoom p
  | .flush => s.hasRoom p

/-- STALL: "1 iff BUSY = 1, PEND.OP is ENCODE or FLUSH, and the FIFO lacks the free space" (R21). -/
def State.stall (s : State) : Bool :=
  match s.pend with
  | none => false
  | some p => !s.completionEnabled p

/-- STATUS (R21), bits 31 down to 0. -/
def State.statusWord (s : State) : Word :=
  0#8 ++ BitVec.ofNat 12 s.outLevel ++ 0#1 ++ s.accN ++ BitVec.ofBool s.stall ++ s.encFmt.bit
    ++ BitVec.ofBool s.single ++ BitVec.ofBool s.errf ++ s.phase.bits ++ BitVec.ofBool s.busy

/-- ROOT (R27). -/
def State.rootWord (s : State) : Word := BitVec.ofBool s.treeV ++ 0#22 ++ s.root

/-- MAXLEN (R30). -/
def State.maxLenWord (s : State) : Word := BitVec.ofBool s.codesV ++ 0#23 ++ s.maxLen

/-- INBITS = 8 × ENC_N, "zero-extended to 64 bits. It has no storage of its own" (R35). -/
def State.inBits (s : State) : DoubleWord := 8#64 * s.encN.setWidth 64

/-- legal(d), the phases in which command d is accepted (R79). PHASE = ERROR is handled first (R78). -/
def legalIn (i : Instr) (p : Phase) : Bool :=
  match i with
  | .nop | .clear | .readFreq _ | .readNode _ | .readCode _ => p != .error
  | .count _ | .build => p == .count
  | .gencodes => p == .built
  | .encode _ | .flush => p == .coded || p == .encoding

/-- The commands that execute in PHASE = ERROR (R78, R127). -/
def runsInError : Instr → Bool
  | .nop | .clear | .readFreq _ | .readNode _ | .readCode _ => true
  | .count _ | .build | .gencodes | .encode _ | .flush => false

/-- COUNT's precheck: "if a <= 255 and x[TOTAL] == 2^32 - 1: raise COUNT_OVERFLOW" (R92). -/
def countPrecheck (a : Arg) (s : State) : Option ErrorCode :=
  if a.toNat ≤ 255 ∧ s.total = maxWord then some .countOverflow else none

/-- BUILD's precheck: "if x[NSYM] == 0: raise EMPTY_INPUT" (R98). -/
def buildPrecheck (s : State) : Option ErrorCode :=
  if s.nsym = 0#9 then some .emptyInput else none

/-- ENCODE's precheck: UNKNOWN_SYMBOL, then COUNT_OVERFLOW (R111, R112, R125). -/
def encodePrecheck (a : Arg) (s : State) : Option ErrorCode :=
  match argSymbol a with
  | none => some .unknownSymbol
  | some y =>
    if s.lenAt y = 0#8 then some .unknownSymbol
    else if s.encN = maxWord then some .countOverflow
    else none

end Sys2Proof.Machine
end

