-- ==== Sys2Proof/Machine/Ops.lean ====
section
/-!
DEFINITION. The operations the commands share: the error entry (spec/60_exceptions.md rule R128) and the exits
from it, CLEAR and reset (rule R129, spec/40_host_port.md rule R83, spec/70_reset_and_hazards.md rule R139),
command acceptance (rule R78), the FIFO (spec/00_scope.md rule R11) and the readout words (spec/10_state.md
rule R41).
-/

namespace Sys2Proof.Machine

/-- Error entry, raise E(w) (R128): ERR and ERR_CMD keep the first error of the run, PHASE becomes ERROR, a pending
command is aborted, and no partial output survives. -/
def State.raise (s : State) (e : ErrorCode) (w : Word) : State :=
  { s with
    errCode := if s.errCode = .none then e else s.errCode
    errCmd := if s.errCode = .none then w else s.errCmd
    phase := .error
    pend := none
    fifo := []
    acc := 0#8
    accN := 0#3 }

/-- NODE with every entry unspecified (R44, log 7). -/
@[irreducible] def freeNodes (count : Nat) : Vector NodeEntry 255 :=
  Vector.ofFn fun k =>
    { weight := Config.freeNodeW count k, left := Config.freeNodeL count k, right := Config.freeNodeR count k }

/-- CODE with every entry unspecified (R44, log 7). -/
@[irreducible] def freeCodes (count : Nat) : Vector (List Bool) 256 := Vector.ofFn fun y => Config.freeCode count y

/-- clear(): every value of R44 but CTRL, which is not changed (R83). NODE and CODE are unspecified afterwards (R44).
A new run starts, so the host has read none of its bytes yet (R88). -/
def State.clear (s : State) : State :=
  { s with
    pend := none
    phase := .count
    errCode := .none
    errCmd := 0#32
    freq := Vector.replicate 256 0#32
    len := Vector.replicate 256 0#8
    total := 0#32
    nsym := 0#9
    treeV := false
    root := 0#9
    node := freeNodes s.free
    codesV := false
    maxLen := 0#8
    wsum := 0#64
    code := freeCodes s.free
    encFmt := .packed
    acc := 0#8
    accN := 0#3
    encN := 0#32
    outBits := 0#64
    fifo := []
    res := Vector.replicate 9 0#32
    free := s.free + 1
    outRead := [] }

/-- The reset input applied: "every piece of state in the value of 10_state.md rule R44, CTRL included" (R139). -/
def State.applyReset (s : State) : State := { s.clear with fmt := .packed }

/-- The acceptance step of a deferred command: BUSY <- 1 and PEND is recorded. "No other state changes" (R81). -/
def State.defer (s : State) (op : DeferredOp) (a : Arg) : State :=
  { s with pend := some { op := op, arg := a, fmt := s.fmt } }

/-- accept(w) of R78 for a word that decodes to the command i, other than CLEAR. `pre` is the command's precheck and
`effect` the state its acceptance leaves. -/
def accept (i : Instr) (pre : Option ErrorCode) (effect s : State) : Result :=
  if s.busy then .next (s.raise .cmdWhileBusy (encodeWord i))
  else if s.phase = .error then
    if runsInError i then .next effect else .next s
  else if legalIn i s.phase then
    match pre with
    | some e => .next (s.raise e (encodeWord i))
    | none => .next effect
  else .next (s.raise .sequence (encodeWord i))

/-- accept(w) of R78 for an illegal word w. -/
def acceptIllegal (w : Word) (s : State) : Result :=
  if s.busy then .next (s.raise .cmdWhileBusy w)
  else if s.phase = .error then .next s
  else .next (s.raise .illegalCmd w)

/-- push(b): append a byte to the tail of the output FIFO (R11). -/
def State.push (s : State) (b : Byte) : State := { s with fifo := s.fifo ++ [b] }

/-- A readout command's result: "Each readout command writes all nine words. A word the command does not define is
written 0" (R41). -/
def State.setRes (s : State) (ws : List Word) : State :=
  { s with res := Vector.ofFn fun i => ws.getD i.val 0#32 }

end Sys2Proof.Machine
end

