-- ==== Sys2Proof/Machine/CodeGenerator.lean ====
section
/-!
DEFINITION. The code table generator: GENCODES, its completion step, and READ_CODE (spec/43_code_generator.md
rules R104 to R107).
-/

namespace Sys2Proof.Machine

/-- walk(n, p), pre-order and depth-first (R105): the leaves below n with their paths. The fuel bounds the depth: a
code has at most 255 bits (R99), so 256 levels are enough (log 9). -/
def State.walk (s : State) : Nat → NodeIndex → List Bool → List (Symbol × List Bool)
  | 0, _, _ => []
  | fuel + 1, n, p =>
    match argSymbol n with
    | some y => [(y, p)]
    | none =>
      match s.nodeAt n with
      | some e => s.walk fuel e.left (p ++ [false]) ++ s.walk fuel e.right (p ++ [true])
      | none => []

/-- The code assignments of GENCODES: the code "0" for a single-leaf tree (R106), else the walk from the root. -/
def State.assignments (s : State) : List (Symbol × List Bool) :=
  match argSymbol s.root with
  | some y => [(y, [false])]
  | none => s.walk 256 s.root []

/-- The bit string assigned to a symbol, if one is; a later assignment stands (R105). -/
def assignedCode (as : List (Symbol × List Bool)) (y : Symbol) : Option (List Bool) := as.reverse.lookup y

/-- LEN after GENCODES: the length of the assigned string, 0 without one (R105). -/
@[irreducible] def lengthsFrom (as : List (Symbol × List Bool)) : Vector (BitVec 8) 256 :=
  Vector.ofFn fun y =>
    match assignedCode as (BitVec.ofNat 8 y.val) with
    | some p => BitVec.ofNat 8 p.length
    | none => 0#8

/-- CODE after GENCODES: the assigned string, and an unspecified entry without one (R33, log 7). -/
@[irreducible] def codesFrom (count : Nat) (as : List (Symbol × List Bool)) : Vector (List Bool) 256 :=
  Vector.ofFn fun y => (assignedCode as (BitVec.ofNat 8 y.val)).getD (Config.freeCode count y.val)

/-- LEN and CODE written from the assignments (R105). -/
def State.withCodes (s : State) (as : List (Symbol × List Bool)) : State :=
  { s with len := lengthsFrom as, code := codesFrom s.free as, free := s.free + 1 }

/-- sum over s of FREQ[s] × LEN[s], exact (R31). -/
def State.weightedLength (s : State) : Nat :=
  (allSymbols.map fun y => (s.freqAt y).toNat * (s.lenAt y).toNat).sum

/-- max over s of LEN[s] (R30). -/
def State.longestCode (s : State) : Nat := allSymbols.foldl (fun m y => max m (s.lenAt y).toNat) 0

/-- WSUM, MAXLEN and CODES_V from FREQ and LEN, and the new PHASE (R105). -/
def State.finishCodes (s : State) : State :=
  { s with
    wsum := BitVec.ofNat 64 s.weightedLength
    maxLen := BitVec.ofNat 8 s.longestCode
    codesV := true
    phase := .coded
    pend := none }

/-- complete(GENCODES), the engine step (R105). -/
def State.completeGencodes (s : State) : State := (s.withCodes s.assignments).finishCodes

/-- GENCODES (R105). -/
def execGencodes (s : State) : Result := accept .gencodes none (s.defer .gencodes 0#9) s

/-- RES(1 + j) of READ_CODE: bit 31 − r holds CODE[s][32 j + r], bits at and beyond LEN[s] are 0 (R107). -/
def State.codeWord (s : State) (y : Symbol) (j : Nat) : Word :=
  BitVec.ofNat 32 (bitsToNat ((List.range 32).map fun r =>
    decide (32 * j + r < (s.lenAt y).toNat) && s.codeBit y (32 * j + r)))

/-- The words READ_CODE gives (R107); none for an entry that is not valid. -/
def State.codeReadout (s : State) (a : Arg) : List Word :=
  match argSymbol a with
  | some y =>
    if s.codesV && s.lenAt y != 0#8 then
      (1#1 ++ 0#23 ++ s.lenAt y) :: (List.range 8).map (s.codeWord y)
    else []
  | none => []

/-- READ_CODE (R107). -/
def execReadCode (a : Arg) (s : State) : Result := accept (.readCode a) none (s.setRes (s.codeReadout a)) s

end Sys2Proof.Machine
end

