-- ==== Sys2Proof/Machine/Control.lean ====
section
/-!
DEFINITION. The control commands NOP and CLEAR (spec/40_host_port.md rules R82 and R83).
-/

namespace Sys2Proof.Machine

/-- NOP: no effect (R82). -/
def execNop (s : State) : Result := accept .nop none s s

/-- CLEAR: start a new run. Never refused, and it acts even while BUSY = 1, abandoning the pending command
(R78, R83). -/
def execClear (s : State) : Result := .next s.clear

end Sys2Proof.Machine
end

