-- ==== Sys2Proof/Machine/Encoder.lean ====
section
/-!
DEFINITION. The bit-packing encoder: bit emission, ENCODE and FLUSH with their completion steps
(spec/44_encoder.md rules R110 to R117).
-/

namespace Sys2Proof.Machine

/-- ((ACC << 1) | b)[7:0] (R116). -/
def shiftIn (acc : Byte) (b : Bool) : Byte := (acc <<< 1) ||| (if b then 1#8 else 0#8)

/-- emit_bit in the packed form, 8 bits per byte, most significant first (R116). -/
def State.emitPacked (s : State) (b : Bool) : State :=
  if s.accN.toNat + 1 = 8 then { s.push (shiftIn s.acc b) with acc := 0#8, accN := 0#3 }
  else { s with acc := shiftIn s.acc b, accN := s.accN + 1#3 }

/-- emit_bit in the textual form: the byte 0x30 + b (R116). -/
def State.emitTextual (s : State) (b : Bool) : State := s.push (if b then 0x31#8 else 0x30#8)

/-- emit_bit(b), in the run's form ENC_FMT (R116). -/
def State.emitBit (s : State) (b : Bool) : State :=
  match s.encFmt with
  | .packed => s.emitPacked b
  | .textual => s.emitTextual b

/-- The bits of a code, emitted in order (R111). -/
def State.emitBits (s : State) (bs : List Bool) : State := bs.foldl State.emitBit s

/-- The latch of ENC_FMT at the run's first ENCODE or FLUSH, the one that finds PHASE = CODED (R40). -/
def State.latchFormat (s : State) (f : Format) : State :=
  { s with encFmt := if s.phase = .coded then f else s.encFmt }

/-- The statistics of one encoded symbol, PHASE, and the end of the completion step (R111). -/
def State.finishEncode (s : State) (y : Symbol) : State :=
  { s with
    encN := s.encN + 1#32
    outBits := s.outBits + (s.lenAt y).setWidth 64
    phase := if s.phase = .coded then .encoding else s.phase
    pend := none }

/-- complete(ENCODE a), the engine step (R111): ENC_FMT is latched before the bits are emitted. -/
def State.completeEncode (s : State) (p : Pending) : State :=
  ((s.latchFormat p.fmt).emitBits (s.codeBits (argLow p.arg))).finishEncode (argLow p.arg)

/-- ENCODE (R111). -/
def execEncode (a : Arg) (s : State) : Result := accept (.encode a) (encodePrecheck a s) (s.defer .encode a) s

/-- FLUSH's last byte: the bits in ACC, padded with 0 bits in the low positions (R114, R115). -/
def State.drainAcc (s : State) : State :=
  if s.encFmt = .packed ∧ 0 < s.accN.toNat then
    { s.push (s.acc <<< (8 - s.accN.toNat)) with acc := 0#8, accN := 0#3 }
  else s

/-- complete(FLUSH), the engine step (R114). -/
def State.completeFlush (s : State) (p : Pending) : State :=
  { (s.latchFormat p.fmt).drainAcc with phase := .done, pend := none }

/-- FLUSH (R114). -/
def execFlush (s : State) : Result := accept .flush none (s.defer .flush 0#9) s

end Sys2Proof.Machine
end

