-- ==== Sys2Proof/Machine/Histogram.lean ====
section
/-!
DEFINITION. The frequency histogram unit: COUNT and READ_FREQ (spec/41_histogram.md rules R91 to R95).
-/

namespace Sys2Proof.Machine

/-- One more occurrence of a symbol: FREQ[s], TOTAL, and NSYM when the entry leaves 0 (R92). -/
def State.countSymbol (s : State) (y : Symbol) : State :=
  { s.setFreq y (s.freqAt y + 1#32) with
    nsym := if s.freqAt y = 0#32 then s.nsym + 1#9 else s.nsym
    total := s.total + 1#32 }

/-- execute(COUNT a): an argument above 255 is not counted, and this is no error (R92, R93). -/
def State.countArg (s : State) (a : Arg) : State :=
  match argSymbol a with
  | some y => s.countSymbol y
  | none => s

/-- COUNT (R92). -/
def execCount (a : Arg) (s : State) : Result := accept (.count a) (countPrecheck a s) (s.countArg a) s

/-- RES0 of READ_FREQ: FREQ[a], or 0 above 255 (R94). -/
def State.freqReadout (s : State) (a : Arg) : List Word :=
  match argSymbol a with
  | some y => [s.freqAt y]
  | none => []

/-- READ_FREQ (R94). -/
def execReadFreq (a : Arg) (s : State) : Result := accept (.readFreq a) none (s.setRes (s.freqReadout a)) s

end Sys2Proof.Machine
end

