-- ==== Sys2Proof/Machine/TreeBuilder.lean ====
section
/-!
DEFINITION. The Huffman tree builder: BUILD, its completion step, and READ_NODE (spec/42_tree_builder.md rules
R96 to R102).
-/

namespace Sys2Proof.Machine

/-- An element of the working list Q: a node with its weight w(n) and its sequence number, which is its index (R97).
The weight is kept exact and narrowed when it is stored in NODE (log 17). -/
structure QueueItem where
  /-- w(n). -/
  weight : Nat
  /-- n, and so seq(n). -/
  index : NodeIndex
  deriving DecidableEq, Repr

/-- key(a) < key(b): weights first, then sequence numbers (R97). -/
def QueueItem.keyLt (a b : QueueItem) : Bool :=
  a.weight < b.weight || (a.weight == b.weight && a.index.toNat < b.index.toNat)

/-- insert(Q, n): "places n so that Q stays ascending by key" (R13). -/
def insertByKey (x : QueueItem) : List QueueItem → List QueueItem
  | [] => [x]
  | y :: ys => if x.keyLt y then x :: y :: ys else y :: insertByKey x ys

/-- The working set: "the leaves of the symbols s with FREQ[s] > 0, and no others" (R96). -/
def State.leaves (s : State) : List QueueItem :=
  allSymbols.filterMap fun y =>
    if s.freqAt y = 0#32 then none else some { weight := (s.freqAt y).toNat, index := leafIndex y }

/-- Q at the start of the merge loop, ascending by key (R97, R98). -/
def State.initialQueue (s : State) : List QueueItem := s.leaves.foldr insertByKey []

/-- The merge loop of R97 from the k-th merge on, at most `fuel` merges: the NODE entries made, in order, and Q at the
end. The first node removed becomes the left child. -/
def mergeLoop : Nat → Nat → List QueueItem → List NodeEntry × List QueueItem
  | fuel + 1, k, a :: b :: rest =>
    let made : NodeEntry :=
      { weight := BitVec.ofNat 32 (a.weight + b.weight), left := a.index, right := b.index }
    let after := mergeLoop fuel (k + 1)
      (insertByKey { weight := a.weight + b.weight, index := internalIndex k } rest)
    (made :: after.1, after.2)
  | _, _, q => ([], q)

/-- The NODE entries a BUILD makes and Q at its end: one merge fewer than Q has elements (R98). -/
def State.buildTree (s : State) : List NodeEntry × List QueueItem :=
  mergeLoop s.initialQueue.length 0 s.initialQueue

/-- NODE after a BUILD: the entries made, and unspecified entries beyond them (R28, log 7). -/
@[irreducible] def nodesFrom (count : Nat) (made : List NodeEntry) : Vector NodeEntry 255 :=
  Vector.ofFn fun k => made.getD k.val (freeNodes count)[k]

/-- ROOT.INDEX <- Q[0] (R98). Q is not empty in a state the rules reach (log 9). -/
def rootOf (old : NodeIndex) (q : List QueueItem) : NodeIndex :=
  match q with
  | [] => old
  | x :: _ => x.index

/-- complete(BUILD), the engine step (R98). -/
def State.completeBuild (s : State) : State :=
  { s with
    node := nodesFrom s.free s.buildTree.1
    root := rootOf s.root s.buildTree.2
    treeV := true
    phase := .built
    pend := none
    free := s.free + 1 }

/-- BUILD (R98): accepted, or EMPTY_INPUT when nothing was counted. -/
def execBuild (s : State) : Result := accept .build (buildPrecheck s) (s.defer .build 0#9) s

/-- RES0 of READ_NODE: VALID, KIND, ISROOT and the index (R102). -/
def State.nodeHeader (s : State) (internal : Bool) (n : NodeIndex) : Word :=
  1#1 ++ BitVec.ofBool internal ++ BitVec.ofBool (n == s.root) ++ 0#20 ++ n

/-- An internal index n is in the tree iff TREE_V = 1 and n − 256 < NSYM − 1 (R28). -/
def State.internalInTree (s : State) (n : NodeIndex) : Bool :=
  s.treeV && 256 ≤ n.toNat && n.toNat - 256 + 1 < s.nsym.toNat

/-- Leaf s is in the tree iff TREE_V = 1 and FREQ[s] > 0 (R29). -/
def State.leafInTree (s : State) (y : Symbol) : Bool := s.treeV && s.freqAt y != 0#32

/-- The words READ_NODE gives (R102); none for an entry that is not valid. -/
def State.nodeReadout (s : State) (n : NodeIndex) : List Word :=
  match argSymbol n with
  | some y =>
    if s.leafInTree y then [s.nodeHeader false n, s.freqAt y, y.setWidth 32] else []
  | none =>
    if s.internalInTree n then
      match s.nodeAt n with
      | some e => [s.nodeHeader true n, e.weight, e.left.setWidth 32, e.right.setWidth 32]
      | none => []
    else []

/-- READ_NODE (R102). -/
def execReadNode (n : Arg) (s : State) : Result := accept (.readNode n) none (s.setRes (s.nodeReadout n)) s

end Sys2Proof.Machine
end

