-- ==== Sys2Proof/Machine/Dispatch.lean ====
section
/-!
DEFINITION. What accepting each command does, one arm per command of spec/opcode_table.json.
-/

namespace Sys2Proof.Machine

def exec (i : Instr) (s : State) : Host.Outcome State Fault Refusal :=
  match i with
  | .nop => Sys2Proof.Machine.execNop s
  | .clear => Sys2Proof.Machine.execClear s
  | .count a => Sys2Proof.Machine.execCount a s
  | .readFreq a => Sys2Proof.Machine.execReadFreq a s
  | .build => Sys2Proof.Machine.execBuild s
  | .readNode n => Sys2Proof.Machine.execReadNode n s
  | .gencodes => Sys2Proof.Machine.execGencodes s
  | .readCode a => Sys2Proof.Machine.execReadCode a s
  | .encode a => Sys2Proof.Machine.execEncode a s
  | .flush => Sys2Proof.Machine.execFlush s

end Sys2Proof.Machine
end

