-- ==== Sys2Proof/Machine/Engine.lean ====
section
/-!
DEFINITION. The engine, which completes the pending deferred command in one atomic step
(spec/40_host_port.md rule R81, spec/00_scope.md rule R7).
-/

namespace Sys2Proof.Machine

/-- Every effect of the pending command's completion step at once, with ARG and FMT taken from PEND (R81). -/
def State.complete (s : State) (p : Pending) : State :=
  match p.op with
  | .build => s.completeBuild
  | .gencodes => s.completeGencodes
  | .encode => s.completeEncode p
  | .flush => s.completeFlush p

/-- The completion step is enabled iff BUSY = 1 and the command's completion condition holds (R81). -/
def State.engineEnabled (s : State) : Bool :=
  match s.pend with
  | none => false
  | some p => s.completionEnabled p

/-- A turn of the engine: its completion step if one is enabled. "The engine has no step while BUSY = 0" (R7), and a
command that holds stays pending (R117). -/
def State.engineStep (s : State) : State :=
  match s.pend with
  | none => s
  | some p => if s.completionEnabled p then s.complete p else s

end Sys2Proof.Machine
end

