-- ==== Sys2Proof/Machine/HostPort.lean ====
section
/-!
DEFINITION. The host port: the register map (spec/10_state.md rules R15 to R41), host reads and writes
(spec/40_host_port.md rules R75 to R78), the host's turn (spec/30_encoding.md rule R73) and the choice of who
moves next (spec/20_memory.md rule R56).
-/

namespace Sys2Proof.Machine

/-- The registers of the window (R15). -/
inductive Reg where
  | id | ctrl | cmd | status | err | total | nsym | root | maxLen | wsumLo | wsumHi | encN
  | inBitsLo | inBitsHi | outBitsLo | outBitsHi | outData
  | res (i : Fin 9)
  | errCmd
  deriving DecidableEq, Repr

/-- The register at a word index, offset 4 × index (R15, R47). Offsets 0x6C to 0xFC are reserved (R77). -/
def Reg.ofIndex (i : RegIndex) : Option Reg :=
  match i.toNat with
  | 0 => some .id
  | 1 => some .ctrl
  | 2 => some .cmd
  | 3 => some .status
  | 4 => some .err
  | 5 => some .total
  | 6 => some .nsym
  | 7 => some .root
  | 8 => some .maxLen
  | 9 => some .wsumLo
  | 10 => some .wsumHi
  | 11 => some .encN
  | 12 => some .inBitsLo
  | 13 => some .inBitsHi
  | 14 => some .outBitsLo
  | 15 => some .outBitsHi
  | 16 => some .outData
  | 17 => some (.res 0)
  | 18 => some (.res 1)
  | 19 => some (.res 2)
  | 20 => some (.res 3)
  | 21 => some (.res 4)
  | 22 => some (.res 5)
  | 23 => some (.res 6)
  | 24 => some (.res 7)
  | 25 => some (.res 8)
  | 26 => some .errCmd
  | _ => none

/-- The word index of a register (R15). -/
def Reg.index : Reg → RegIndex
  | .id => 0#6
  | .ctrl => 1#6
  | .cmd => 2#6
  | .status => 3#6
  | .err => 4#6
  | .total => 5#6
  | .nsym => 6#6
  | .root => 7#6
  | .maxLen => 8#6
  | .wsumLo => 9#6
  | .wsumHi => 10#6
  | .encN => 11#6
  | .inBitsLo => 12#6
  | .inBitsHi => 13#6
  | .outBitsLo => 14#6
  | .outBitsHi => 15#6
  | .outData => 16#6
  | .res i => BitVec.ofNat 6 (17 + i.val)
  | .errCmd => 26#6

/-- The byte offset of a word index: "the byte offset of a register is 4 × word index" (R47). -/
def byteOffset (i : RegIndex) : Nat := 4 * i.toNat

/-- The host address of a register, in a window placed at HUFF_BASE (R47, R54, log 4). -/
def hostAddress (i : RegIndex) : Nat := Config.huffBase + byteOffset i

/-- The constant ID reads, "HUF1" (R17). -/
def idValue : Word := 0x48554631#32

/-- The low register of a 64-bit quantity, bits 31:0 (R48). -/
def lowHalf (v : DoubleWord) : Word := v.extractLsb' 0 32

/-- The high register of a 64-bit quantity, bits 63:32 (R48). -/
def highHalf (v : DoubleWord) : Word := v.extractLsb' 32 32

/-- OUT_DATA's value: VALID in bit 8 and the FIFO's head, or 0 (R38). -/
def State.outDataWord (s : State) : Word :=
  match s.fifo with
  | [] => 0#32
  | b :: _ => 0#23 ++ 1#1 ++ b

/-- The value of each register (R17 to R41). CMD reads 0 (R19). -/
def State.regValue (s : State) : Reg → Word
  | .id => idValue
  | .ctrl => s.fmt.bit.setWidth 32
  | .cmd => 0#32
  | .status => s.statusWord
  | .err => s.errCode.bits.setWidth 32
  | .total => s.total
  | .nsym => s.nsym.setWidth 32
  | .root => s.rootWord
  | .maxLen => s.maxLenWord
  | .wsumLo => lowHalf s.wsum
  | .wsumHi => highHalf s.wsum
  | .encN => s.encN
  | .inBitsLo => lowHalf s.inBits
  | .inBitsHi => highHalf s.inBits
  | .outBitsLo => lowHalf s.outBits
  | .outBitsHi => highHalf s.outBits
  | .outData => s.outDataWord
  | .res i => s.res[i]
  | .errCmd => s.errCmd

/-- What a host read of a word index returns; a reserved offset reads 0 (R75, R77). -/
def State.readValue (s : State) (i : RegIndex) : Word :=
  match Reg.ofIndex i with
  | some r => s.regValue r
  | none => 0#32

/-- pop(): remove the byte at the head of the FIFO; the host keeps it (R11, R38, R88). -/
def State.popOutput (s : State) : State :=
  match s.fifo with
  | [] => s
  | b :: rest => { s with fifo := rest, outRead := s.outRead ++ [b] }

/-- MemRead(off, 4) (R75): the value is returned on the port, and a read of OUT_DATA pops (R38). -/
def State.hostRead (s : State) (i : RegIndex) : State :=
  let t := { s with readData := s.readValue i }
  if Reg.ofIndex i = some .outData then t.popOutput else t

/-- accept(w), for any word w (R78). -/
def acceptWord (w : Word) (s : State) : Result :=
  match decode w with
  | .command i => exec i s
  | .illegal _ => acceptIllegal w s

/-- MemWrite(off, 4, v) (R76): CMD issues a command, CTRL takes bit 0, everything else has no effect. -/
def State.hostWrite (s : State) (i : RegIndex) (v : Word) : Result :=
  match Reg.ofIndex i with
  | some .cmd => acceptWord v s
  | some .ctrl => .next { s with fmt := Format.ofBit (v.getLsbD 0) }
  | _ => .next s

/-- The host goes on to the next statement of its listing. -/
def State.nextStatement (s : State) : State := { s with prog := s.prog.tail }

/-- One read of a WAIT loop: "It ends after the first STATUS read with BUSY = 0" (R73). -/
def State.waitStep (s : State) : State :=
  let t := s.hostRead Reg.status.index
  if t.readData.getLsbD 0 then t else t.nextStatement

/-- One read of a DRAIN loop: "It ends after the first read with VALID = 0" (R73). -/
def State.drainStep (s : State) : State :=
  let t := s.hostRead Reg.outData.index
  if t.readData.getLsbD 8 then t else t.nextStatement

/-- A turn of the host: its next access (R7, R73). With no access left it makes none. -/
def hostTurn (s : State) : Result :=
  match s.prog with
  | [] => .next s
  | .wr i v :: _ => s.nextStatement.hostWrite i v
  | .rd i :: _ => .next (s.nextStatement.hostRead i)
  | .wait :: _ => .next s.waitStep
  | .drain :: _ => .next s.drainStep

/-- Who moves next (R56): the head of `turns`. With no turn given, an enabled completion step goes first, then the
host (log 2). -/
def State.nextTurn (s : State) : Turn :=
  match s.turns with
  | t :: _ => t
  | [] => if s.engineEnabled then .engine else .host

/-- The turn is used up. -/
def State.endTurn (s : State) : State := { s with turns := s.turns.tail }

/-- One atomic step of the total order of R56, or a reset (R139), by the agent whose turn it is. -/
def takeTurn (t : Turn) (s : State) : Result :=
  match t with
  | .host => hostTurn s
  | .engine => .next s.engineStep
  | .reset => .next s.applyReset

/-- The host's next access, made at once, is a write of a command word to CMD (log 1). -/
def State.withCommand (s : State) (w : Word) : State :=
  { s with prog := .wr Reg.cmd.index w :: s.prog, turns := .host :: s.turns }

end Sys2Proof.Machine
end

