-- ==== Sys2Proof/Machine/Step.lean ====
section
/-!
DEFINITION. One step of the machine (spec/20_memory.md rule R56), and the placing of a command as the next access.
-/

namespace Sys2Proof.Machine

/-- One atomic step: of the host, of the engine, or a reset (R56, R139). -/
def step (s : State) : Host.Outcome State Fault Refusal := takeTurn s.nextTurn s.endTurn

/-- The machine fetches nothing (R8): its next instruction is the next command word the host writes to CMD. So the
word is placed as the host's next access, and the next turn is the host's (log 1). -/
def State.withFetchWord (s : State) (nbits w : Nat) : State :=
  s.withCommand (BitVec.ofNat 32 (w % 2 ^ nbits))

end Sys2Proof.Machine
end

