-- ==== Sys2Proof/Machine/Listing.lean ====
section
/-!
DEFINITION. The host-side listing language: its statements, their expansion to host accesses, and its text
(spec/30_encoding.md rules R72 and R73; the run order of spec/70_reset_and_hazards.md rule R142).
-/

namespace Sys2Proof.Machine

/-- A command statement: one host write of the encoded word to CMD (R72). -/
def issue (i : Instr) : HostOp := .wr Reg.cmd.index (encodeWord i)

/-- The argument of a symbol. -/
def symbolArg (y : Symbol) : Arg := y.setWidth 9

/-- COUNTS "text": COUNT c for each byte c, in order (R73). -/
def countsOps (text : List Symbol) : List HostOp := text.map fun c => issue (.count (symbolArg c))

/-- ENCODES "text": for each byte c, in order, ENCODE c; WAIT; DRAIN (R73). -/
def encodesOps (text : List Symbol) : List HostOp :=
  text.flatMap fun c => [issue (.encode (symbolArg c)), .wait, .drain]

/-- PREP: BUILD; WAIT; GENCODES; WAIT (R73). -/
def prepOps : List HostOp := [issue .build, .wait, issue .gencodes, .wait]

/-- A whole run over an input, in the order of R142: CLEAR for a later run, CTRL.FMT, pass 1, BUILD and GENCODES,
pass 2, FLUSH, and the final drain. -/
def runOps (laterRun : Bool) (f : Format) (input : List Symbol) : List HostOp :=
  (if laterRun then [issue .clear] else []) ++ [.wr Reg.ctrl.index (f.bit.setWidth 32)] ++ countsOps input
    ++ prepOps ++ encodesOps input ++ [issue .flush, .wait, .drain]

/-- A statement of the listing (R72, R73). -/
inductive Stmt where
  /-- A command mnemonic with its operand, if one is written. -/
  | command (mnemonic : List Char) (operand : Option Nat)
  /-- WR reg, value. -/
  | wr (reg : RegIndex) (value : Word)
  /-- RD reg. -/
  | rd (reg : RegIndex)
  /-- WAIT. -/
  | wait
  /-- DRAIN. -/
  | drain
  /-- COUNTS "text". -/
  | counts (text : List Symbol)
  /-- ENCODES "text". -/
  | encodes (text : List Symbol)
  /-- PREP. -/
  | prep
  deriving DecidableEq, Repr

/-- A command without operand, by its mnemonic (R72). -/
def plainCommand (m : List Char) : Option Instr :=
  if m = ['N', 'O', 'P'] then some .nop
  else if m = ['C', 'L', 'E', 'A', 'R'] then some .clear
  else if m = ['B', 'U', 'I', 'L', 'D'] then some .build
  else if m = ['G', 'E', 'N', 'C', 'O', 'D', 'E', 'S'] then some .gencodes
  else if m = ['F', 'L', 'U', 'S', 'H'] then some .flush
  else none

/-- A command with an operand, by its mnemonic (R72). -/
def operandCommand (m : List Char) (a : Arg) : Option Instr :=
  if m = ['C', 'O', 'U', 'N', 'T'] then some (.count a)
  else if m = ['R', 'E', 'A', 'D', '_', 'F', 'R', 'E', 'Q'] then some (.readFreq a)
  else if m = ['R', 'E', 'A', 'D', '_', 'N', 'O', 'D', 'E'] then some (.readNode a)
  else if m = ['R', 'E', 'A', 'D', '_', 'C', 'O', 'D', 'E'] then some (.readCode a)
  else if m = ['E', 'N', 'C', 'O', 'D', 'E'] then some (.encode a)
  else none

/-- The command of a mnemonic and its operand. "An operand above 511 is an assembly error" (R72). -/
def assemble (m : List Char) (operand : Option Nat) : Option Instr :=
  match operand with
  | none => plainCommand m
  | some n => if operandFits n then operandCommand m (BitVec.ofNat 9 n) else none

/-- The host accesses a statement stands for; none for an assembly error (R72, R73). -/
def Stmt.expand : Stmt → Option (List HostOp)
  | .command m operand => (assemble m operand).map fun i => [issue i]
  | .wr r v => some [.wr r v]
  | .rd r => some [.rd r]
  | .wait => some [.wait]
  | .drain => some [.drain]
  | .counts t => some (countsOps t)
  | .encodes t => some (encodesOps t)
  | .prep => some prepOps

/-- A token of a line of text (log 16). -/
inductive Token where
  /-- A mnemonic, register name or number. -/
  | word (cs : List Char)
  /-- A character literal 'c'. -/
  | chr (c : Char)
  /-- A quoted text. -/
  | text (cs : List Char)
  /-- The comma of WR. -/
  | comma
  deriving DecidableEq, Repr

/-- The word being read, closed and put after the tokens before it. -/
def closeWord (cur : List Char) (out : List Token) : List Token :=
  if cur.isEmpty then out else out ++ [.word cur]

/-- Cuts a line into tokens. `quoted` is the text being read inside double quotes. A semicolon starts a comment (R72),
and "=>" shows a value a read returns (R73), so both end the statement (log 16). -/
def tokens (quoted : Option (List Char)) (cur : List Char) (out : List Token) : List Char → Option (List Token)
  | [] => if quoted.isSome then none else some (closeWord cur out)
  | c :: rest =>
    match quoted with
    | some t => if c = '"' then tokens none [] (out ++ [.text t]) rest else tokens (some (t ++ [c])) [] out rest
    | none =>
      if c = '"' then tokens (some []) [] (closeWord cur out) rest
      else if c = ';' ∨ c = '=' then some (closeWord cur out)
      else if c = ',' then tokens none [] (closeWord cur out ++ [.comma]) rest
      else if c = ' ' ∨ c = '\t' then tokens none [] (closeWord cur out) rest
      else if c = '\'' then
        match rest with
        | d :: '\'' :: more => tokens none [] (closeWord cur out ++ [.chr d]) more
        | _ => none
      else tokens none (cur ++ [c]) out rest

/-- The value of a digit character, in bases up to 16. -/
def digitValue (c : Char) : Option Nat :=
  if '0' ≤ c ∧ c ≤ '9' then some (c.toNat - 48)
  else if 'a' ≤ c ∧ c ≤ 'f' then some (c.toNat - 87)
  else if 'A' ≤ c ∧ c ≤ 'F' then some (c.toNat - 55)
  else none

/-- One more digit of a number in a base. -/
def addDigit (base : Nat) (v : Option Nat) (c : Char) : Option Nat :=
  match v, digitValue c with
  | some n, some d => if d < base then some (base * n + d) else none
  | _, _ => none

/-- A number in decimal, or in hex after 0x (R72). -/
def numberOf (cs : List Char) : Option Nat :=
  match cs with
  | '0' :: 'x' :: d :: ds => (d :: ds).foldl (addDigit 16) (some 0)
  | [] => none
  | _ => cs.foldl (addDigit 10) (some 0)

/-- The 8-bit code of a character (R72, log 16): its ASCII code. DESIGN CHOICE: R72 names no code outside ASCII; a
character from 128 to 255 has its Unicode code point, and a character above 255 has no code. -/
def charCode (c : Char) : Option Symbol := if c.toNat < 256 then some (BitVec.ofNat 8 c.toNat) else none

/-- The value of an operand token (R72). -/
def operandOf : Token → Option Nat
  | .word cs => numberOf cs
  | .chr c => (charCode c).map BitVec.toNat
  | .text _ => none
  | .comma => none

/-- The register of a name (R15, R73). -/
def regNamed (cs : List Char) : Option RegIndex :=
  [ (['I', 'D'], Reg.id), (['C', 'T', 'R', 'L'], Reg.ctrl), (['C', 'M', 'D'], Reg.cmd),
    (['S', 'T', 'A', 'T', 'U', 'S'], Reg.status), (['E', 'R', 'R'], Reg.err), (['T', 'O', 'T', 'A', 'L'], Reg.total),
    (['N', 'S', 'Y', 'M'], Reg.nsym), (['R', 'O', 'O', 'T'], Reg.root), (['M', 'A', 'X', 'L', 'E', 'N'], Reg.maxLen),
    (['W', 'S', 'U', 'M', '_', 'L', 'O'], Reg.wsumLo), (['W', 'S', 'U', 'M', '_', 'H', 'I'], Reg.wsumHi),
    (['E', 'N', 'C', '_', 'N'], Reg.encN), (['I', 'N', 'B', 'I', 'T', 'S', '_', 'L', 'O'], Reg.inBitsLo),
    (['I', 'N', 'B', 'I', 'T', 'S', '_', 'H', 'I'], Reg.inBitsHi),
    (['O', 'U', 'T', 'B', 'I', 'T', 'S', '_', 'L', 'O'], Reg.outBitsLo),
    (['O', 'U', 'T', 'B', 'I', 'T', 'S', '_', 'H', 'I'], Reg.outBitsHi),
    (['O', 'U', 'T', '_', 'D', 'A', 'T', 'A'], Reg.outData),
    (['R', 'E', 'S', '0'], Reg.res 0), (['R', 'E', 'S', '1'], Reg.res 1), (['R', 'E', 'S', '2'], Reg.res 2),
    (['R', 'E', 'S', '3'], Reg.res 3), (['R', 'E', 'S', '4'], Reg.res 4), (['R', 'E', 'S', '5'], Reg.res 5),
    (['R', 'E', 'S', '6'], Reg.res 6), (['R', 'E', 'S', '7'], Reg.res 7), (['R', 'E', 'S', '8'], Reg.res 8),
    (['E', 'R', 'R', '_', 'C', 'M', 'D'], Reg.errCmd) ].lookup cs |>.map Reg.index

/-- A value WR can write: at most 32 bits. -/
def wordOf (t : Token) : Option Word :=
  match operandOf t with
  | some n => if n < 2 ^ 32 then some (BitVec.ofNat 32 n) else none
  | none => none

/-- The bytes of a quoted text (R73). -/
def textBytes : List Char → Option (List Symbol)
  | [] => some []
  | c :: cs =>
    match charCode c, textBytes cs with
    | some y, some ys => some (y :: ys)
    | _, _ => none

/-- The letters of a word in capitals: "Mnemonics are case-insensitive" (R72, of the mnemonics of R65). DESIGN CHOICE:
the spec does not give the letter case of register names and of the host statements; they are read in any case, too
(log 16). -/
def upper (cs : List Char) : List Char := cs.map Char.toUpper

/-- The statement of a line's tokens, its first word in capitals (R72, R73). DESIGN CHOICE: WR, RD, WAIT, DRAIN, COUNTS,
ENCODES and PREP, and the register names of WR and RD, are read in any letter case (log 16). -/
def statementOf (m : List Char) (args : List Token) : Option Stmt :=
  if m = ['W', 'R'] then
    match args with
    | [.word r, .comma, v] =>
      match regNamed (upper r), wordOf v with
      | some i, some x => some (.wr i x)
      | _, _ => none
    | _ => none
  else if m = ['R', 'D'] then
    match args with
    | [.word r] => (regNamed (upper r)).map .rd
    | _ => none
  else if m = ['C', 'O', 'U', 'N', 'T', 'S'] then
    match args with
    | [.text t] => (textBytes t).map .counts
    | _ => none
  else if m = ['E', 'N', 'C', 'O', 'D', 'E', 'S'] then
    match args with
    | [.text t] => (textBytes t).map .encodes
    | _ => none
  else
    match args with
    | [] =>
      if m = ['W', 'A', 'I', 'T'] then some .wait
      else if m = ['D', 'R', 'A', 'I', 'N'] then some .drain
      else if m = ['P', 'R', 'E', 'P'] then some .prep
      else some (.command m none)
    | [t] => (operandOf t).map fun n => .command m (some n)
    | _ => none

/-- The host accesses of one line; an empty line stands for none, an assembly error for no result (R72). -/
def assembleLine (line : List Char) : Option (List HostOp) :=
  match tokens none [] [] line with
  | none => none
  | some [] => some []
  | some (.word m :: args) => (statementOf (upper m) args).bind Stmt.expand
  | some (_ :: _) => none

/-- The host accesses of a listing, one statement per line (R72). -/
def assembleLines : List (List Char) → Option (List HostOp)
  | [] => some []
  | l :: ls =>
    match assembleLine l, assembleLines ls with
    | some a, some b => some (a ++ b)
    | _, _ => none

end Sys2Proof.Machine
end

