-- ==== Sys2Proof/Machine/Statistics.lean ====
section
/-!
DEFINITION. What the host computes from the block's integers: the statistics as exact rationals
(spec/44_encoder.md rules R119 and R120), the run's output as code bits (rule R115, spec/20_memory.md rule R49), and
the round-trip decoding of it by the tree (rule R122).
-/

namespace Sys2Proof.Machine

/-- A fraction, defined only where its denominator is not 0 (R119, log 18). -/
def fraction (num den : Nat) : Option Rat := if den = 0 then none else some ((num : Rat) / (den : Rat))

/-- "compression ratio (output/input)": OUTBITS / INBITS, defined when ENC_N > 0 (R119). -/
def State.compressionRatio (s : State) : Option Rat := fraction s.outBits.toNat s.inBits.toNat

/-- "the average code length weighted by observed frequency": WSUM / TOTAL, defined when CODES_V = 1 (R119). -/
def State.averageLength (s : State) : Option Rat :=
  if s.codesV then fraction s.wsum.toNat s.total.toNat else none

/-- Percentage size of output relative to input: 100 × OUTBITS / INBITS (R120). -/
def State.outputPercentage (s : State) : Option Rat := fraction (100 * s.outBits.toNat) s.inBits.toNat

/-- Ratio of input to output size: INBITS / OUTBITS, when OUTBITS > 0 (R120). -/
def State.inputOutputRatio (s : State) : Option Rat := fraction s.inBits.toNat s.outBits.toNat

/-- Compression percentage by average code length, (1 − avgLen/8) × 100 (R120). -/
def State.compressionPercentage (s : State) : Option Rat := s.averageLength.map fun a => (1 - a / 8) * 100

/-- The node a decoder goes to on one bit: "going to L on 0 and to R on 1". On a single-leaf tree it stays at the
leaf (R122). -/
def State.decodeGo (s : State) (n : NodeIndex) (b : Bool) : NodeIndex :=
  match s.nodeAt n with
  | some e => if b then e.right else e.left
  | none => n

/-- The host's decoding of code bits from a node of the tree: "At each leaf it outputs that leaf's symbol and returns
to the root" (R122). -/
def State.decodeFrom (s : State) : NodeIndex → List Bool → List Symbol
  | _, [] => []
  | n, b :: bs =>
    match argSymbol (s.decodeGo n b) with
    | some y => y :: s.decodeFrom s.root bs
    | none => s.decodeFrom (s.decodeGo n b) bs

/-- The host's decoding of a whole code-bit sequence, from the root (R122). -/
def State.decodeBits (s : State) (bs : List Bool) : List Symbol := s.decodeFrom s.root bs

/-- The eight code bits of a packed byte, the earliest in bit 7 (R49). -/
def byteBits (b : Byte) : List Bool := (List.range 8).map fun i => b.getLsbD (7 - i)

/-- The bytes of the run so far: those the host has read (log 12) and those still in the FIFO, in order (R49, R88). -/
def State.payload (s : State) : List Byte := s.outRead ++ s.fifo

/-- The bits of the payload in the run's form: eight a byte, or one for each byte 0x30 or 0x31 (R49, R116). After a
packed FLUSH the pad bits are among them. -/
def State.payloadBits (s : State) : List Bool :=
  match s.encFmt with
  | .packed => s.payload.flatMap byteBits
  | .textual => s.payload.map fun b => b == 0x31#8

/-- The code bits of the run's output: "A reader of the payload takes the first OUTBITS bits and ignores the rest"
(R115). -/
def State.outputBits (s : State) : List Bool := s.payloadBits.take s.outBits.toNat

/-- The round-trip decoding of the run's output: "Decoding takes the first OUTBITS code bits, packed or textual. It
walks from the root" (R122). -/
def State.decodeOutput (s : State) : List Symbol := s.decodeBits s.outputBits

end Sys2Proof.Machine
end

