-- ==== Sys2Proof/Safety.lean ====
section
/-!
DEFINITION. What claims about HUFF-CORE are stated in: the start and the ends of a run (spec/10_state.md rule R44,
spec/40_host_port.md rule R88), the invariants of every reachable state (spec/10_state.md rule R45 and the state
rules behind it), and the code-bit stream of a run (spec/44_encoder.md rules R110 and R115).
-/

namespace Sys2Proof.Machine

/-! ## Ends and start of a run -/

/-- "Successful end. PHASE = DONE, BUSY = 0 and OUT_LEVEL = 0" (R88). -/
def State.successfulEnd (s : State) : Bool := s.phase == .done && !s.busy && s.outLevel == 0

/-- "Failed end. PHASE = ERROR" (R88). -/
def State.failedEnd (s : State) : Bool := s.phase == .error

/-- A run is safe so far when no error ended it (R88). -/
def State.safeSoFar (s : State) : Bool := !s.failedEnd

/-- The values of R44 that reset and CLEAR both give. CTRL is left out, which only reset changes, and the contents of
NODE and CODE, which are unspecified. -/
structure RunStart (s : State) : Prop where
  phase : s.phase = .count
  pend : s.pend = none
  errCode : s.errCode = .none
  errCmd : s.errCmd = 0#32
  freq : ∀ y : Symbol, s.freqAt y = 0#32
  total : s.total = 0#32
  nsym : s.nsym = 0#9
  treeV : s.treeV = false
  root : s.root = 0#9
  codesV : s.codesV = false
  maxLen : s.maxLen = 0#8
  len : ∀ y : Symbol, s.lenAt y = 0#8
  wsum : s.wsum = 0#64
  encFmt : s.encFmt = .packed
  acc : s.acc = 0#8
  accN : s.accN = 0#3
  encN : s.encN = 0#32
  outBits : s.outBits = 0#64
  fifo : s.fifo = []
  res : ∀ i : Fin 9, s.res[i] = 0#32

/-! ## The code-bit stream -/

/-- The code bits in the packing accumulator, the earliest in ACC[ACC_N−1] (R39). -/
def State.accBits (s : State) : List Bool :=
  (List.range s.accN.toNat).map fun i => s.acc.getLsbD (s.accN.toNat - 1 - i)

/-- The code bits a run has emitted so far, in the run's form (R110, R116). -/
def State.emitted (s : State) : List Bool :=
  match s.encFmt with
  | .packed => s.payloadBits ++ s.accBits
  | .textual => s.payloadBits

/-! ## Pass 2 -/

/-- The phases of pass 2: after GENCODES and before the run's end by CLEAR, reset or an error (R20). -/
def Phase.inPassTwo : Phase → Bool
  | .coded | .encoding | .done => true
  | .count | .built | .error => false

/-- The symbol the next step encodes: the argument of the ENCODE it completes, if it completes one (R111). -/
def State.encodedByStep (s : State) : List Symbol :=
  match s.nextTurn, s.pend with
  | .engine, some p => if p.op = .encode ∧ s.completionEnabled p = true then [argLow p.arg] else []
  | .engine, none | .host, _ | .reset, _ => []

/-- `PassTwo s ys t`: from s in CODED, steps of one run, by any agents in any order, lead to t, and the ENCODEs they
complete are those of the symbols ys, in order (R110, R122). -/
inductive PassTwo : State → List Symbol → State → Prop where
  /-- Pass 2 starts in CODED, with nothing encoded. -/
  | start (s : State) (h : s.phase = .coded) : PassTwo s [] s
  /-- One more step of the same run. -/
  | next {s t u : State} {ys : List Symbol} (before : PassTwo s ys t) (h : step t = .next u)
      (run : u.phase.inPassTwo = true) : PassTwo s (ys ++ t.encodedByStep) u

/-! ## Invariants -/

/-- Σ FREQ[s], exact. -/
def State.freqSum (s : State) : Nat := (allSymbols.map fun y => (s.freqAt y).toNat).sum

/-- The symbols with FREQ[s] > 0. -/
def State.countedSymbols (s : State) : List Symbol := allSymbols.filter fun y => s.freqAt y != 0#32

/-- "TOTAL = Σ FREQ[s], and NSYM = |{s : FREQ[s] > 0}|" (R45, R24, R25). -/
structure CountsAgree (s : State) : Prop where
  total : s.total.toNat = s.freqSum
  nsym : s.nsym.toNat = s.countedSymbols.length

/-- The phases a pending command can be pending in (R79, R81). -/
def pendingLegal (op : DeferredOp) (p : Phase) : Bool :=
  match op with
  | .build => p == .count
  | .gencodes => p == .built
  | .encode | .flush => p == .coded || p == .encoding

/-- PHASE agrees with the valid bits, the error registers and the pending command (R20, R23, R27, R30, R45). -/
structure PhaseAgrees (s : State) : Prop where
  /-- A tree exists in BUILT, CODED, ENCODING and DONE, and none in COUNT. -/
  tree : match s.phase with
    | .count => s.treeV = false
    | .error => True
    | _ => s.treeV = true
  /-- A code table exists in CODED, ENCODING and DONE, and none in COUNT and BUILT. -/
  codes : match s.phase with
    | .count | .built => s.codesV = false
    | .error => True
    | _ => s.codesV = true
  /-- "CODES_V = 1 implies TREE_V = 1". -/
  codesNeedTree : s.codesV = true → s.treeV = true
  /-- ERRF "equivalently PHASE = ERROR" (R21). -/
  error : s.errCode = .none ↔ s.phase ≠ .error
  /-- ERR_CMD is "0 when CODE = 0" (R23). -/
  errCmd : s.errCode = .none → s.errCmd = 0#32
  /-- "BUSY = 1 implies PHASE ≠ ERROR", and a pending command is legal in its phase. -/
  pend : ∀ p, s.pend = some p → pendingLegal p.op s.phase = true

/-- The tree stored in NODE and ROOT is the one the counts give (R28, R98, R100). -/
structure TreeAgrees (s : State) : Prop where
  /-- A tree has at least one leaf. -/
  leaves : s.treeV = true → 0 < s.nsym.toNat
  /-- Every internal entry in the tree is the one its merge made. -/
  nodes : s.treeV = true → ∀ k : Fin 255, k.val + 1 < s.nsym.toNat → s.buildTree.1[k.val]? = some s.node[k]
  /-- ROOT.INDEX is the last node of Q. -/
  root : s.treeV = true → s.root = rootOf 0#9 s.buildTree.2
  /-- ROOT.INDEX is "0 when TREE_V = 0" (R27). -/
  noTree : s.treeV = false → s.root = 0#9
  /-- A pending BUILD has passed its precheck (R81, R98). -/
  pend : ∀ p, s.pend = some p → p.op = .build → s.nsym ≠ 0#9

/-- The code table stored in LEN and CODE is the one the tree gives, with its statistics (R30 to R33, R45, R105). -/
structure CodesAgree (s : State) : Prop where
  /-- Every symbol has the code the walk assigns it, and only those symbols. -/
  table : s.codesV = true → ∀ y : Symbol,
    match assignedCode s.assignments y with
    | some p => (s.lenAt y).toNat = p.length ∧ s.codeAt y = p ∧ p ≠ []
    | none => s.lenAt y = 0#8
  /-- "LEN[s] > 0 iff FREQ[s] > 0". -/
  complete : s.codesV = true → ∀ y : Symbol, s.lenAt y = 0#8 ↔ s.freqAt y = 0#32
  /-- "WSUM = Σ FREQ[s] × LEN[s]". -/
  wsum : s.codesV = true → s.wsum.toNat = s.weightedLength
  /-- MAXLEN.LEN is the largest LEN[s]. -/
  maxLen : s.codesV = true → s.maxLen.toNat = s.longestCode
  /-- Without a code table LEN, WSUM and MAXLEN.LEN are 0. -/
  noCodes : s.codesV = false → (∀ y : Symbol, s.lenAt y = 0#8) ∧ s.wsum = 0#64 ∧ s.maxLen = 0#8

/-- Pass 2 has not started: nothing is encoded, nothing is in the FIFO and no form is latched (R34, R36, R40). That the
host has read no byte of the run (`outRead`) is the model's own clause (log 12). -/
structure NothingEncoded (s : State) : Prop where
  encFmt : s.encFmt = .packed
  acc : s.acc = 0#8
  accN : s.accN = 0#3
  encN : s.encN = 0#32
  outBits : s.outBits = 0#64
  fifo : s.fifo = []
  outRead : s.outRead = []

/-- The accumulator, the FIFO and the encoder's statistics (R36, R37, R39, R45). -/
structure EncoderAgrees (s : State) : Prop where
  /-- "OUTBITS ≤ 255 × ENC_N". -/
  bound : s.outBits.toNat ≤ 255 * s.encN.toNat
  /-- "Bits of ACC at and above ACC_N are 0" (R39). -/
  acc : s.acc.toNat < 2 ^ s.accN.toNat
  /-- The FIFO "holds 0 to D_OUT bytes" (R37). -/
  level : s.fifo.length ≤ Config.dOut
  /-- "If PHASE = ERROR then OUT_LEVEL = 0 and ACC_N = 0". -/
  error : s.phase = .error → s.fifo = [] ∧ s.accN = 0#3
  /-- "When ENC_FMT = 1, ACC_N = 0." -/
  textual : s.encFmt = .textual → s.accN = 0#3
  /-- "When PHASE = DONE, ACC_N = 0." -/
  done : s.phase = .done → s.accN = 0#3
  /-- Before pass 2 nothing is encoded. -/
  before : s.phase = .count ∨ s.phase = .built ∨ s.phase = .coded → NothingEncoded s
  /-- A pending ENCODE has passed its prechecks (R81, R111). -/
  pend : ∀ p, s.pend = some p → p.op = .encode →
    p.arg.toNat ≤ 255 ∧ s.lenAt (argLow p.arg) ≠ 0#8 ∧ s.encN ≠ maxWord

/-- The length of the output (R110, R115): OUTBITS code bits while encoding; after FLUSH, ceil(OUTBITS / 8) packed
bytes or OUTBITS textual bytes. -/
structure OutputAgrees (s : State) : Prop where
  encoding : s.phase = .encoding → s.emitted.length = s.outBits.toNat
  packed : s.phase = .done → s.encFmt = .packed → s.payload.length = (s.outBits.toNat + 7) / 8
  textual : s.phase = .done → s.encFmt = .textual → s.payload.length = s.outBits.toNat

/-- The invariants of R45 and the state rules behind them. -/
structure Inv (s : State) : Prop where
  counts : CountsAgree s
  phase : PhaseAgrees s
  tree : TreeAgrees s
  codes : CodesAgree s
  encoder : EncoderAgrees s
  output : OutputAgrees s

/-! ## Words for statements -/

/-- w(n) of R97 in the tree BUILD makes: the count of a leaf, the stored weight W of an internal node. -/
def State.treeWeight (s : State) (n : NodeIndex) : Nat :=
  match argSymbol n with
  | some y => (s.freqAt y).toNat
  | none =>
    match s.buildTree.1[n.toNat - 256]? with
    | some e => e.weight.toNat
    | none => 0

/-- The children of the nodes BUILD makes, merge by merge, left before right, each with its weight. -/
def State.mergedChildren (s : State) : List QueueItem :=
  s.buildTree.1.flatMap fun e =>
    [{ weight := s.treeWeight e.left, index := e.left }, { weight := s.treeWeight e.right, index := e.right }]

/-- The order of the working list Q: keys ascend strictly, so no two nodes share a key (R97). -/
def Ascending (q : List QueueItem) : Prop := q.Pairwise fun a b => a.keyLt b = true

/-- The host's next access is a write of this word to CMD (R19). -/
def State.writesCommand (s : State) (w : Word) : Prop :=
  s.nextTurn = .host ∧ ∃ rest, s.prog = .wr Reg.cmd.index w :: rest

/-- The error a command's own precheck reports (R78). -/
def precheckOf (i : Instr) (s : State) : Option ErrorCode :=
  match i with
  | .count a => countPrecheck a s
  | .build => buildPrecheck s
  | .encode a => encodePrecheck a s
  | .nop | .clear | .readFreq _ | .readNode _ | .gencodes | .readCode _ | .flush => none

/-- The error code an accepted word leaves in a run without error: the first cause in the order of R125. -/
def firstError (w : Word) (s : State) : ErrorCode :=
  if s.busy then .cmdWhileBusy
  else
    match decode w with
    | .illegal _ => .illegalCmd
    | .command i => if legalIn i s.phase then (precheckOf i s).getD .none else .sequence

end Sys2Proof.Machine
end

