-- ==== Sys2Proof/Certificates/Slice0/Obligations.lean ====
section
/-!
DEFINITION. The statements about HUFF-CORE for the provers, each a definition Obligations.<Name> : Prop, taken from
the numbered rules of spec/.
-/

open Sys2Proof Sys2Proof.Machine

/-! ## Encoding (spec/30_encoding.md) -/

/-- R69, R72: decoding and encoding agree for every command, every operand and every word: a word decodes to a command
iff it is that command's encoding. So no bit of a word is dropped, and no two commands share a word. -/
def Obligations.DecodeExactlyInvertsEncode : Prop :=
  ∀ (w : Word) (i : Instr), decode w = .command i ↔ encodeWord i = w

/-- R68: a word decodes to a command iff OP is known, RSV = 0, and ARG = 0 on the five commands without operand; every
other word, accepted with BUSY = 0 outside ERROR, raises ILLEGAL_CMD. -/
def Obligations.LegalWordsAndIllegalCmd : Prop :=
  ∀ w : Word,
    ((∃ i, decode w = .command i) ↔
      (w.toNat % 2 ^ 8 ∈ [0x00, 0x01, 0x10, 0x11, 0x20, 0x21, 0x30, 0x31, 0x40, 0x41] ∧
        w.toNat / 2 ^ 17 = 0 ∧
        (w.toNat % 2 ^ 8 ∈ [0x00, 0x01, 0x20, 0x30, 0x41] → w.toNat / 2 ^ 8 % 2 ^ 9 = 0))) ∧
    ∀ s : State, s.busy = false → s.phase ≠ .error → (¬ ∃ i, decode w = .command i) →
      acceptWord w s = .next (s.raise .illegalCmd w)

/-- R69, R70: the legal words are exactly those that exactly one row of the match and mask table matches, and that row
is the decoded command's; an illegal word matches no row. -/
def Obligations.OneTableRowMatches : Prop :=
  ∀ w : Word,
    (∀ i, decode w = .command i →
      ∃ r, opcodeTable.filter (fun r => r.matchesWord w) = [r] ∧ r.mnemonic = i.mnemonic) ∧
    (∀ why, decode w = .illegal why → opcodeTable.filter (fun r => r.matchesWord w) = [])

/-- R63, R10, R74: the three fields of a command word are its bits 7:0, 16:8 and 31:17, and together they are the word;
and the example words of R74 decode as they are written there. -/
def Obligations.CommandWordFormat : Prop :=
  (∀ w : Word,
    (CommandFields.ofWord w).op.toNat = w.toNat % 2 ^ 8 ∧
    (CommandFields.ofWord w).arg.toNat = w.toNat / 2 ^ 8 % 2 ^ 9 ∧
    (CommandFields.ofWord w).rsv.toNat = w.toNat / 2 ^ 17 ∧
    (CommandFields.ofWord w).toWord = w) ∧
  decode 0x00000000#32 = .command .nop ∧
  decode 0x00000001#32 = .command .clear ∧
  decode 0x00004110#32 = .command (.count 0x41#9) ∧
  decode 0x00000010#32 = .command (.count 0#9) ∧
  decode 0x00012C10#32 = .command (.count 300#9) ∧
  decode 0x00004211#32 = .command (.readFreq 0x42#9) ∧
  decode 0x00000020#32 = .command .build ∧
  decode 0x00010021#32 = .command (.readNode 256#9) ∧
  decode 0x0001FF21#32 = .command (.readNode 511#9) ∧
  decode 0x00000030#32 = .command .gencodes ∧
  decode 0x0000FF31#32 = .command (.readCode 0xFF#9) ∧
  decode 0x00004240#32 = .command (.encode 0x42#9) ∧
  decode 0x00000041#32 = .command .flush ∧
  decode 0x00000120#32 = .illegal .argumentNotZero ∧
  decode 0x00024110#32 = .illegal .reservedField ∧
  decode 0x00000050#32 = .illegal .reservedOpcode

/-! ## The step (spec/20_memory.md, spec/40_host_port.md) -/

/-- R19, R76, R78: when the host's next access writes a word to CMD, the step is exec of the decoded command on the
state in which the access and the turn are used up; an illegal word is accepted as R78 says. -/
def Obligations.StepRunsDecodedCommand : Prop :=
  ∀ (s : State) (w : Word) (rest : List HostOp), s.nextTurn = .host → s.prog = .wr Reg.cmd.index w :: rest →
    (∀ i, decode w = .command i → step s = exec i { s with prog := rest, turns := s.turns.tail }) ∧
    (∀ why, decode w = .illegal why → step s = acceptIllegal w { s with prog := rest, turns := s.turns.tail })

/-- R75, R76, R81: host accesses never raise an error that stops the block, and a completion step raises none: every
step from every state answers a next state. -/
def Obligations.StepAlwaysAnswers : Prop := ∀ s : State, ∃ t, step s = .next t

/-- R7, R57, R81: a turn of the engine changes nothing while BUSY = 0 or while the command holds, and otherwise takes
the completion step, which leaves BUSY = 0 and raises no error. -/
def Obligations.EngineTurn : Prop :=
  ∀ s : State, s.nextTurn = .engine →
    (s.busy = false → step s = .next { s with turns := s.turns.tail }) ∧
    (∀ p, s.pend = some p → s.completionEnabled p = false → step s = .next { s with turns := s.turns.tail }) ∧
    (∀ p, s.pend = some p → s.completionEnabled p = true →
      ∃ t, step s = .next t ∧ t = { s.complete p with turns := s.turns.tail } ∧ t.busy = false ∧
        t.errCode = s.errCode ∧ t.errCmd = s.errCmd)

/-- R139, R44, R140: reset applied in any state gives every value of R44, CTRL included, a pending command is abandoned and
the FIFO emptied, and the host's own listing stays (log 11). The machine's first state has the same values: PHASE = COUNT,
STATUS reads 0x00000000 and ID reads 0x48554631. -/
def Obligations.ResetValues : Prop :=
  (∀ s : State, s.nextTurn = .reset →
    ∃ t, step s = .next t ∧ RunStart t ∧ t.fmt = .packed ∧ t.busy = false ∧ t.outLevel = 0 ∧
      t.readValue Reg.status.index = 0x00000000#32 ∧ t.readValue Reg.id.index = 0x48554631#32 ∧
      t.prog = s.prog ∧ t.turns = s.turns.tail) ∧
  RunStart State.reset ∧ State.reset.fmt = .packed ∧
  State.reset.readValue Reg.status.index = 0x00000000#32 ∧
  State.reset.readValue Reg.id.index = 0x48554631#32

/-! ## Acceptance and errors (spec/40_host_port.md, spec/60_exceptions.md) -/

/-- R78, R84: while BUSY = 1 every word but CLEAR raises CMD_WHILE_BUSY, which aborts the pending command; CLEAR is
accepted and abandons it. -/
def Obligations.CommandWhileBusy : Prop :=
  ∀ (w : Word) (s : State), s.busy = true →
    (decode w ≠ .command .clear → acceptWord w s = .next (s.raise .cmdWhileBusy w) ∧
      (s.raise .cmdWhileBusy w).busy = false) ∧
    (decode w = .command .clear → ∃ t, acceptWord w s = .next t ∧ RunStart t)

/-- R79: with BUSY = 0 and outside ERROR, COUNT and BUILD outside COUNT, GENCODES outside BUILT, and ENCODE and FLUSH
outside CODED and ENCODING raise SEQUENCE; NOP, CLEAR and the readouts raise it in no phase. -/
def Obligations.OutOfPhaseRaisesSequence : Prop :=
  (∀ s : State, s.busy = false → s.phase ≠ .error →
    (s.phase ≠ .count → exec .build s = .next (s.raise .sequence 0x00000020#32) ∧
      ∀ a, exec (.count a) s = .next (s.raise .sequence (encodeWord (.count a)))) ∧
    (s.phase ≠ .built → exec .gencodes s = .next (s.raise .sequence 0x00000030#32)) ∧
    (s.phase ≠ .coded → s.phase ≠ .encoding → exec .flush s = .next (s.raise .sequence 0x00000041#32) ∧
      ∀ a, exec (.encode a) s = .next (s.raise .sequence (encodeWord (.encode a))))) ∧
  (∀ s : State, s.busy = false → ∀ a,
    ∀ i ∈ [Instr.nop, .clear, .readFreq a, .readNode a, .readCode a],
      ∃ t, exec i s = .next t ∧ (t.errCode = s.errCode ∨ RunStart t))

/-- R124, R125: in a run without error the first cause in R125's order is the one reported, ERR_CMD receives the whole
word written, and a command that raises nothing leaves ERR_CMD alone; in ERROR nothing is raised. -/
def Obligations.FirstErrorIsReported : Prop :=
  ∀ (w : Word) (s : State), decode w ≠ .command .clear → ∃ t, acceptWord w s = .next t ∧
    (s.errCode = .none → s.phase ≠ .error →
      t.errCode = firstError w s ∧
      (firstError w s ≠ .none → t.errCmd = w ∧ t.phase = .error) ∧
      (firstError w s = .none → t.errCmd = s.errCmd)) ∧
    (s.phase = .error → s.busy = false → t.errCode = s.errCode ∧ t.errCmd = s.errCmd)

/-- R128: error entry writes ERR and ERR_CMD only while CODE = 0, enters PHASE = ERROR, aborts a pending command, and
empties the FIFO and the accumulator; every other register and memory is unchanged. -/
def Obligations.ErrorEntry : Prop :=
  ∀ (s : State) (e : ErrorCode) (w : Word),
    ∃ t, t = s.raise e w ∧
    (s.errCode = .none → t.errCode = e ∧ t.errCmd = w) ∧
    (s.errCode ≠ .none → t.errCode = s.errCode ∧ t.errCmd = s.errCmd) ∧
    t.phase = .error ∧ t.busy = false ∧ t.fifo = [] ∧ t.acc = 0#8 ∧ t.accN = 0#3 ∧
    t = { s with errCode := t.errCode, errCmd := t.errCmd, phase := .error, pend := none,
                 fifo := [], acc := 0#8, accN := 0#3 }

/-- R127: in PHASE = ERROR with BUSY = 0, NOP, CLEAR and the three readouts execute, and every other word, legal or not,
has no effect. -/
def Obligations.ErrorPhaseCommands : Prop :=
  ∀ s : State, s.phase = .error → s.busy = false →
    (exec .nop s = .next s) ∧
    (∃ t, exec .clear s = .next t ∧ RunStart t) ∧
    (∀ a, exec (.readFreq a) s = .next (s.setRes (s.freqReadout a)) ∧
      exec (.readNode a) s = .next (s.setRes (s.nodeReadout a)) ∧
      exec (.readCode a) s = .next (s.setRes (s.codeReadout a))) ∧
    (∀ w, (∀ i, decode w = .command i → runsInError i = false) → acceptWord w s = .next s)

/-- R129: the only ways out of PHASE = ERROR are CLEAR and reset, which start a new run; any other step keeps PHASE, ERR
and ERR_CMD. The premise holds in every reachable state (PhaseIsKept). -/
def Obligations.OnlyClearAndResetLeaveError : Prop :=
  ∀ s t : State, s.phase = .error → s.busy = false → step s = .next t →
    (t.phase = .error ∧ t.errCode = s.errCode ∧ t.errCmd = s.errCmd) ∨
    (RunStart t ∧ s.nextTurn = .reset) ∨
    (RunStart t ∧ t.fmt = s.fmt ∧ ∃ w, s.writesCommand w ∧ decode w = .command .clear)

/-- R20: only the transitions of R20's table exist, each by the step that the table names. -/
def Obligations.PhaseTransitions : Prop :=
  ∀ s t : State, PhaseAgrees s → step s = .next t →
    t.phase = s.phase ∨
    (t.phase = .count ∧ RunStart t ∧
      (s.nextTurn = .reset ∨ ∃ w, s.writesCommand w ∧ decode w = .command .clear)) ∨
    (t.phase = .error ∧ t.errCode ≠ .none ∧ ∃ w, s.writesCommand w) ∨
    (s.nextTurn = .engine ∧ ∃ p, s.pend = some p ∧
      ((p.op = .build ∧ s.phase = .count ∧ t.phase = .built) ∨
       (p.op = .gencodes ∧ s.phase = .built ∧ t.phase = .coded) ∨
       (p.op = .encode ∧ s.phase = .coded ∧ t.phase = .encoding) ∨
       (p.op = .flush ∧ (s.phase = .coded ∨ s.phase = .encoding) ∧ t.phase = .done)))

/-- R22: BUSY goes from 0 to 1 only when a deferred command is accepted, and from 1 to 0 only at that command's completion
step, at an error, at CLEAR or at reset. -/
def Obligations.BusyTransitions : Prop :=
  ∀ s t : State, step s = .next t →
    (s.busy = false → t.busy = true →
      ∃ w a, s.writesCommand w ∧
        decode w ∈ [.command .build, .command .gencodes, .command .flush, .command (.encode a)]) ∧
    (s.busy = true → t.busy = false →
      (s.nextTurn = .engine ∧ ∃ p, s.pend = some p ∧ s.completionEnabled p = true) ∨
      t.phase = .error ∨ RunStart t)

/-! ## Control commands (spec/40_host_port.md) -/

/-- R82: NOP has no effect in any PHASE when BUSY = 0, and raises CMD_WHILE_BUSY when BUSY = 1. -/
def Obligations.NopHasNoEffect : Prop :=
  ∀ s : State, (s.busy = false → exec .nop s = .next s) ∧
    (s.busy = true → exec .nop s = .next (s.raise .cmdWhileBusy 0x00000000#32))

/-- R83: CLEAR is never refused, in any PHASE and at any BUSY; it gives every value of R44 and leaves CTRL. The host's
side of the port but the run's bytes is unchanged. -/
def Obligations.ClearStartsANewRun : Prop :=
  ∀ s : State, ∃ t, exec .clear s = .next t ∧ RunStart t ∧ t.fmt = s.fmt ∧ t.statusWord = 0#32 ∧
    t.prog = s.prog ∧ t.turns = s.turns ∧ t.readData = s.readData

/-! ## Frequency histogram (spec/41_histogram.md) -/

/-- R92, R93: COUNT in PHASE = COUNT with BUSY = 0. Of a symbol 0 to 255 below the bound: FREQ[s] and TOTAL rise by one,
NSYM rises when the entry was 0, and nothing else changes. Of an argument above 255: nothing changes and nothing is
raised, even when TOTAL = 2^32 − 1. Of a symbol with TOTAL = 2^32 − 1: COUNT_OVERFLOW, with FREQ, TOTAL and NSYM
unchanged. In every other phase but ERROR: SEQUENCE. -/
def Obligations.CountCountsASymbol : Prop :=
  ∀ (a : Arg) (s : State), s.busy = false →
    (s.phase = .count → a.toNat ≤ 255 → s.total ≠ maxWord →
      ∃ t, exec (.count a) s = .next t ∧
        t = { s with freq := t.freq, total := s.total + 1#32,
                     nsym := if s.freqAt (a.setWidth 8) = 0#32 then s.nsym + 1#9 else s.nsym } ∧
        t.freqAt (a.setWidth 8) = s.freqAt (a.setWidth 8) + 1#32 ∧
        ∀ y : Symbol, y ≠ a.setWidth 8 → t.freqAt y = s.freqAt y) ∧
    (s.phase = .count → 255 < a.toNat → exec (.count a) s = .next s) ∧
    (s.phase = .count → a.toNat ≤ 255 → s.total = maxWord →
      ∃ t, exec (.count a) s = .next t ∧ t = s.raise .countOverflow (encodeWord (.count a)) ∧
        t.freq = s.freq ∧ t.total = s.total ∧ t.nsym = s.nsym) ∧
    (s.phase ≠ .count → s.phase ≠ .error → exec (.count a) s = .next (s.raise .sequence (encodeWord (.count a))))

/-- R94: READ_FREQ with BUSY = 0, in every PHASE, gives FREQ[a] in RES0, or 0 above 255, writes RES1 to RES8 to 0, and
changes nothing else. -/
def Obligations.ReadFreqGivesTheCount : Prop :=
  ∀ (a : Arg) (s : State), s.busy = false →
    ∃ t, exec (.readFreq a) s = .next t ∧ t = { s with res := t.res } ∧
      (a.toNat ≤ 255 → t.regValue (.res 0) = s.freqAt (a.setWidth 8)) ∧
      (255 < a.toNat → t.regValue (.res 0) = 0#32) ∧
      ∀ i : Fin 9, 0 < i.val → t.regValue (.res i) = 0#32

/-- R95, which the spec derives from R92 and R97. Of the unchecked effect execute(COUNT a) of R92 alone, without its
precheck and the acceptance tests: two lists of COUNT arguments that are permutations of each other give the same state,
so the same FREQ, TOTAL and NSYM. (An accepted COUNT at TOTAL = 2^32 − 1 raises COUNT_OVERFLOW, which does depend on the
order.) -/
def Obligations.CountOrderIsIrrelevant : Prop :=
  ∀ (s : State) (as bs : List Arg), as.Perm bs →
    as.foldl State.countArg s = bs.foldl State.countArg s

/-- R26: only COUNT changes FREQ, one entry by one, besides CLEAR and reset; with FREQ change TOTAL and NSYM. -/
def Obligations.OnlyCountWritesTheHistogram : Prop :=
  ∀ s t : State, step s = .next t →
    (t.freq = s.freq ∧ t.total = s.total ∧ t.nsym = s.nsym) ∨ RunStart t ∨
    ∃ w a, s.writesCommand w ∧ decode w = .command (.count a) ∧ a.toNat ≤ 255 ∧
      t.freqAt (a.setWidth 8) = s.freqAt (a.setWidth 8) + 1#32 ∧ t.total = s.total + 1#32 ∧
      ∀ y : Symbol, y ≠ a.setWidth 8 → t.freqAt y = s.freqAt y

/-! ## Tree builder (spec/42_tree_builder.md) -/

/-- R98: BUILD in PHASE = COUNT with BUSY = 0. With a symbol counted it is accepted with BUSY <- 1 and nothing else changed,
and its completion step stores the entries of the merges in NODE and the last node of Q in ROOT, sets TREE_V,
PHASE = BUILT and BUSY = 0, and changes nothing else (NODE beyond the entries made is unspecified, log 7). With NSYM = 0
it raises EMPTY_INPUT and no tree is built. -/
def Obligations.BuildBuildsTheTree : Prop :=
  ∀ s : State, s.busy = false → s.phase = .count →
    (s.nsym ≠ 0#9 →
      ∃ t u, exec .build s = .next t ∧ t = { s with pend := some { op := .build, arg := 0#9, fmt := s.fmt } } ∧
        u = t.engineStep ∧
        u = { s with node := u.node, root := u.root, treeV := true, phase := .built, pend := none,
                     free := s.free + 1 } ∧
        (∀ k : Fin 255, ∀ e, s.buildTree.1[k.val]? = some e → u.nodeAt (internalIndex k.val) = some e) ∧
        (∀ x q, s.buildTree.2 = x :: q → u.root = x.index)) ∧
    (s.nsym = 0#9 →
      ∃ t, exec .build s = .next t ∧ t = s.raise .emptyInput 0x00000020#32 ∧ t.treeV = s.treeV ∧ t.busy = false)

/-- R96, R97: the working list starts as the leaves of the symbols with FREQ > 0 and no others, each with its count,
ascending by key. -/
def Obligations.WorkingListStartsSorted : Prop :=
  ∀ s : State, Ascending s.initialQueue ∧
    s.initialQueue.Perm (s.countedSymbols.map fun y => { weight := (s.freqAt y).toNat, index := leafIndex y })

/-- R97, R13: a merged node goes after every node of equal weight: inserted into an ascending list whose sequence numbers
are smaller, it stands after all nodes of weight at most its own and before all heavier ones, and the list stays
ascending. -/
def Obligations.InsertGoesAfterEqualWeights : Prop :=
  ∀ (x : QueueItem) (q : List QueueItem), Ascending q → (∀ y ∈ q, y.index.toNat < x.index.toNat) →
    insertByKey x q = q.filter (fun y => y.weight ≤ x.weight) ++ x :: q.filter (fun y => x.weight < y.weight) ∧
    Ascending (insertByKey x q)

/-- R99: the tree of NSYM counted symbols has NSYM − 1 internal nodes; one node is left, of weight TOTAL; it is the last
one made, or the single leaf; every node but it is the child of exactly one internal node; children have lower indices
than their parent; and every weight is at most TOTAL, so no W field overflows. -/
def Obligations.TreeShape : Prop :=
  ∀ s : State, CountsAgree s → s.nsym ≠ 0#9 →
    s.buildTree.1.length = s.nsym.toNat - 1 ∧
    (∃ x, s.buildTree.2 = [x] ∧ x.weight = s.total.toNat ∧
      (2 ≤ s.nsym.toNat → x.index = internalIndex (s.nsym.toNat - 2)) ∧
      (s.nsym = 1#9 → ∃ y, s.countedSymbols = [y] ∧ x.index = leafIndex y)) ∧
    ((s.buildTree.2.map fun x => x.index) ++ s.buildTree.1.flatMap fun e => [e.left, e.right]).Perm
      (s.countedSymbols.map leafIndex ++ (List.range (s.nsym.toNat - 1)).map internalIndex) ∧
    (∀ (k : Nat) (e : NodeEntry), s.buildTree.1[k]? = some e →
      e.left.toNat < 256 + k ∧ e.right.toNat < 256 + k ∧ e.weight.toNat ≤ s.total.toNat)

/-- R97, which pins the merge. Each node BUILD makes has as weight the sum of its children's weights; and the children of
the nodes made, merge by merge and left before right, followed by the root, stand in strictly ascending order of the key
(w(n), n). So every merge took the two nodes of lowest key left, the lowest as the left child. -/
def Obligations.MergesTakeTheTwoLowest : Prop :=
  ∀ s : State, CountsAgree s → s.nsym ≠ 0#9 →
    (∀ (k : Nat) (e : NodeEntry), s.buildTree.1[k]? = some e →
      e.weight.toNat = s.treeWeight e.left + s.treeWeight e.right) ∧
    Ascending (s.mergedChildren ++ s.buildTree.2)

/-- R101, R106: with one counted symbol the root is that leaf, SINGLE reads 1 after BUILD, and GENCODES gives the leaf the
code "0" of length 1. -/
def Obligations.SingleSymbolTree : Prop :=
  ∀ (s : State) (y : Symbol), CountsAgree s → s.countedSymbols = [y] →
    s.completeBuild.root = leafIndex y ∧ s.completeBuild.single = true ∧
    s.completeBuild.completeGencodes.lenAt y = 1#8 ∧ s.completeBuild.completeGencodes.codeAt y = [false] ∧
    s.completeBuild.completeGencodes.maxLen = 1#8

/-- R102: READ_NODE with BUSY = 0, in every PHASE: a leaf of the tree, an internal node of the tree, or all zeros; nothing
but RES0 to RES8 changes. -/
def Obligations.ReadNodeGivesTheNode : Prop :=
  ∀ (n : Arg) (s : State), s.busy = false →
    ∃ t, exec (.readNode n) s = .next t ∧ t = { s with res := t.res } ∧
      (∀ y : Symbol, n = leafIndex y → s.treeV = true → s.freqAt y ≠ 0#32 →
        (t.regValue (.res 0)).toNat = 2 ^ 31 + (if n = s.root then 2 ^ 29 else 0) + n.toNat ∧
        t.regValue (.res 1) = s.freqAt y ∧ (t.regValue (.res 2)).toNat = y.toNat ∧
        ∀ i : Fin 9, 3 ≤ i.val → t.regValue (.res i) = 0#32) ∧
      (∀ k : Fin 255, n = internalIndex k.val → s.treeV = true → k.val + 1 < s.nsym.toNat →
        (t.regValue (.res 0)).toNat = 2 ^ 31 + 2 ^ 30 + (if n = s.root then 2 ^ 29 else 0) + n.toNat ∧
        t.regValue (.res 1) = s.node[k].weight ∧
        (t.regValue (.res 2)).toNat = s.node[k].left.toNat ∧
        (t.regValue (.res 3)).toNat = s.node[k].right.toNat ∧
        ∀ i : Fin 9, 4 ≤ i.val → t.regValue (.res i) = 0#32) ∧
      ((s.treeV = false ∨ (∃ y : Symbol, n = leafIndex y ∧ s.freqAt y = 0#32) ∨ n = 511#9 ∨
          (256 ≤ n.toNat ∧ s.nsym.toNat ≤ n.toNat - 256 + 1)) →
        ∀ i : Fin 9, t.regValue (.res i) = 0#32)

/-! ## Code table generator (spec/43_code_generator.md) -/

/-- R105: GENCODES in PHASE = BUILT is accepted with BUSY <- 1 and nothing else changed, and its completion step writes LEN
and CODE from the assignments, WSUM, MAXLEN, CODES_V, PHASE = CODED and BUSY = 0, and changes nothing else (CODE
without a code is unspecified, log 7). -/
def Obligations.GencodesWritesTheTable : Prop :=
  ∀ s : State, s.busy = false → s.phase = .built →
    ∃ t u, exec .gencodes s = .next t ∧
      t = { s with pend := some { op := .gencodes, arg := 0#9, fmt := s.fmt } } ∧
      u = t.engineStep ∧
      u = { s with len := u.len, code := u.code, wsum := u.wsum, maxLen := u.maxLen, codesV := true,
                   phase := .coded, pend := none, free := s.free + 1 } ∧
      (∀ y : Symbol, ∀ p, assignedCode s.assignments y = some p →
        u.lenAt y = BitVec.ofNat 8 p.length ∧ u.codeAt y = p) ∧
      (∀ y : Symbol, assignedCode s.assignments y = none → u.lenAt y = 0#8) ∧
      u.wsum.toNat = (allSymbols.map fun y => (s.freqAt y).toNat * (u.lenAt y).toNat).sum ∧
      (∀ y : Symbol, (u.lenAt y).toNat ≤ u.maxLen.toNat) ∧ (∃ y : Symbol, u.lenAt y = u.maxLen)

/-- R104: with two or more symbols, a symbol's code is the path from the root to its leaf, 0 for left and 1 for right: all
of it leads to the leaf, every proper prefix of it leads to an internal node of the tree, so LEN is the leaf's depth. It
is at least 1; that it is at most NSYM − 1 is R99's, which the spec derives. -/
def Obligations.CodeIsThePathToTheLeaf : Prop :=
  ∀ s : State, Inv s → s.codesV = true → 2 ≤ s.nsym.toNat → ∀ y : Symbol, s.freqAt y ≠ 0#32 →
    (s.codeAt y).foldl s.decodeGo s.root = leafIndex y ∧ s.codeBits y = s.codeAt y ∧
    (s.codeAt y).length = (s.lenAt y).toNat ∧
    (∀ j, j < (s.lenAt y).toNat →
      s.internalInTree (((s.codeAt y).take j).foldl s.decodeGo s.root) = true) ∧
    1 ≤ (s.lenAt y).toNat ∧ (s.lenAt y).toNat ≤ s.nsym.toNat - 1

/-- R108: for distinct symbols with a code, neither code is a prefix of the other. -/
def Obligations.CodesArePrefixFree : Prop :=
  ∀ s : State, Inv s → s.codesV = true → ∀ y z : Symbol, y ≠ z → s.lenAt y ≠ 0#8 → s.lenAt z ≠ 0#8 →
    ¬ (s.codeBits y) <+: (s.codeBits z)

/-- R107: READ_CODE with BUSY = 0, in every PHASE: VALID and the length in RES0, code bit i in bit 31 − i mod 32 of
RES(1 + i div 32), and 0 beyond; or all zeros; nothing but RES0 to RES8 changes. -/
def Obligations.ReadCodeGivesTheCode : Prop :=
  ∀ (a : Arg) (s : State), s.busy = false →
    ∃ t, exec (.readCode a) s = .next t ∧ t = { s with res := t.res } ∧
      (∀ y : Symbol, a = symbolArg y → s.codesV = true → s.lenAt y ≠ 0#8 →
        (t.regValue (.res 0)).toNat = 2 ^ 31 + (s.lenAt y).toNat ∧
        ∀ i : Fin 256, (t.readValue (BitVec.ofNat 6 (18 + i.val / 32))).getLsbD (31 - i.val % 32) =
          (decide (i.val < (s.lenAt y).toNat) && s.codeBit y i.val)) ∧
      ((s.codesV = false ∨ 255 < a.toNat ∨ (∃ y : Symbol, a = symbolArg y ∧ s.lenAt y = 0#8)) →
        ∀ i : Fin 9, t.regValue (.res i) = 0#32)

/-- R27, R30, R32, R33: only the completion of BUILD sets TREE_V, and only the completion of GENCODES sets CODES_V or
writes LEN, CODE, WSUM and MAXLEN; only CLEAR and reset clear them; an error leaves them. -/
def Obligations.OnlyCompletionsWriteTreeAndCodes : Prop :=
  ∀ s t : State, step s = .next t →
    RunStart t ∨
    ((t.treeV = s.treeV ∧ t.root = s.root ∧ t.node = s.node ∨
        (s.nextTurn = .engine ∧ ∃ p, s.pend = some p ∧ p.op = .build ∧ t.treeV = true)) ∧
     (t.codesV = s.codesV ∧ t.len = s.len ∧ t.code = s.code ∧ t.wsum = s.wsum ∧ t.maxLen = s.maxLen ∨
        (s.nextTurn = .engine ∧ ∃ p, s.pend = some p ∧ p.op = .gencodes ∧ t.codesV = true)))

/-! ## Bit-packing encoder (spec/44_encoder.md) -/

/-- R111: ENCODE of a symbol with a code, in CODED or ENCODING and below the bound, is accepted with BUSY <- 1 and nothing
else changed; when the FIFO has room its completion step latches the form, emits the symbol's code bits, adds 1 to
ENC_N and LEN to OUTBITS, sets PHASE = ENCODING and BUSY = 0, and changes nothing else. -/
def Obligations.EncodeEmitsTheCode : Prop :=
  ∀ (a : Arg) (s : State), s.busy = false → s.phase = .coded ∨ s.phase = .encoding →
    a.toNat ≤ 255 → s.lenAt (a.setWidth 8) ≠ 0#8 → s.encN ≠ maxWord →
    ∃ t, exec (.encode a) s = .next t ∧ t = { s with pend := some { op := .encode, arg := a, fmt := s.fmt } } ∧
      (t.hasRoom { op := .encode, arg := a, fmt := s.fmt } = true →
        ∃ u v, u = t.engineStep ∧
          v = ({ s with encFmt := if s.phase = .coded then s.fmt else s.encFmt } : State).emitBits
            (s.codeBits (a.setWidth 8)) ∧
          u = { s with encFmt := if s.phase = .coded then s.fmt else s.encFmt
                       fifo := v.fifo, acc := v.acc, accN := v.accN
                       encN := s.encN + 1#32
                       outBits := s.outBits + (s.lenAt (a.setWidth 8)).setWidth 64
                       phase := .encoding, pend := none })

/-- R111, R112: in CODED or ENCODING, ENCODE of an argument above 255 or of a symbol with no code raises UNKNOWN_SYMBOL,
and otherwise with ENC_N = 2^32 − 1 raises COUNT_OVERFLOW; ENC_N and OUTBITS stay. -/
def Obligations.EncodeErrors : Prop :=
  ∀ (a : Arg) (s : State), s.busy = false → s.phase = .coded ∨ s.phase = .encoding →
    ((255 < a.toNat ∨ s.lenAt (a.setWidth 8) = 0#8) →
      ∃ t, exec (.encode a) s = .next t ∧ t = s.raise .unknownSymbol (encodeWord (.encode a)) ∧
        t.encN = s.encN ∧ t.outBits = s.outBits) ∧
    (a.toNat ≤ 255 → s.lenAt (a.setWidth 8) ≠ 0#8 → s.encN = maxWord →
      ∃ t, exec (.encode a) s = .next t ∧ t = s.raise .countOverflow (encodeWord (.encode a)) ∧
        t.encN = s.encN ∧ t.outBits = s.outBits)

/-- R113: nothing but the completion of an ENCODE changes ENC_N and OUTBITS, by 1 and by the code length, besides CLEAR and
reset, which set them to 0. -/
def Obligations.OnlyEncodeCountsSymbols : Prop :=
  ∀ s t : State, step s = .next t →
    (t.encN = s.encN ∧ t.outBits = s.outBits) ∨ (RunStart t ∧ t.encN = 0#32 ∧ t.outBits = 0#64) ∨
    (s.nextTurn = .engine ∧ ∃ p, s.pend = some p ∧ p.op = .encode ∧ t.encN = s.encN + 1#32 ∧
      t.outBits = s.outBits + (s.lenAt (argLow p.arg)).setWidth 64)

/-- R114: FLUSH in CODED or ENCODING is accepted with BUSY <- 1 and nothing else changed; when the FIFO has room its
completion step latches the form in CODED, in packed form pushes the bits of ACC padded with 0 bits in the low
positions, sets PHASE = DONE and BUSY = 0, and changes nothing else. -/
def Obligations.FlushEndsPassTwo : Prop :=
  ∀ s : State, s.busy = false → s.phase = .coded ∨ s.phase = .encoding →
    ∃ t, exec .flush s = .next t ∧ t = { s with pend := some { op := .flush, arg := 0#9, fmt := s.fmt } } ∧
      (t.hasRoom { op := .flush, arg := 0#9, fmt := s.fmt } = true →
        ∃ u f, u = t.engineStep ∧ f = (if s.phase = .coded then s.fmt else s.encFmt) ∧
          (f = .packed → s.accN ≠ 0#3 →
            u = { s with encFmt := f, fifo := s.fifo ++ [s.acc <<< (8 - s.accN.toNat)], acc := 0#8, accN := 0#3,
                         phase := .done, pend := none }) ∧
          ((f = .textual ∨ s.accN = 0#3) → u = { s with encFmt := f, phase := .done, pend := none }))

/-- R116, R49, R110: emitting bits appends exactly them to the code-bit stream of the run, in order; in packed form the
earliest bit of a byte is its bit 7, in textual form each bit is one byte 0x30 or 0x31; only the FIFO's tail and the
accumulator change. (The stream starts with the bytes the host has read in the run, the model's record, log 12.) -/
def Obligations.EmittedBitsAreAppended : Prop :=
  ∀ (s : State) (bs : List Bool),
    (s.emitBits bs).emitted = s.emitted ++ bs ∧ s.fifo <+: (s.emitBits bs).fifo ∧
    (s.encFmt = .textual → (s.emitBits bs).fifo = s.fifo ++ bs.map (fun b => if b then 0x31#8 else 0x30#8)) ∧
    s.emitBits bs = { s with fifo := (s.emitBits bs).fifo, acc := (s.emitBits bs).acc, accN := (s.emitBits bs).accN }

/-- R110: the completion of an ENCODE appends the code of its symbol to the code-bit stream of the run, and a host read of
OUT_DATA leaves the stream as it is. (The bytes the host has read are the model's record, log 12.) -/
def Obligations.EncodeAppendsToTheStream : Prop :=
  (∀ (s : State) (p : Pending), EncoderAgrees s → s.phase = .coded ∨ s.phase = .encoding →
    s.pend = some p → p.op = .encode → s.hasRoom p = true →
      s.engineStep.emitted = s.emitted ++ s.codeBits (argLow p.arg)) ∧
  (∀ s : State, (s.hostRead Reg.outData.index).emitted = s.emitted)

/-- R117, R9: need is exactly the number of bytes the completion step of an ENCODE or a FLUSH pushes, at most 32 in packed
form and at most 255 in textual form; so an empty FIFO, of any depth D_OUT from 256 to 4095, always has room. -/
def Obligations.NeedIsTheBytesPushed : Prop :=
  (256 ≤ Config.dOut ∧ Config.dOut ≤ 4095) ∧
  ∀ (s : State) (p : Pending),
    (p.op = .encode ∨ p.op = .flush → (s.complete p).fifo.length = s.fifo.length + s.bytesNeeded p) ∧
    (s.runFormat p = .packed → s.bytesNeeded p ≤ 32) ∧ s.bytesNeeded p ≤ 255 ∧
    (s.outLevel = 0 → s.hasRoom p = true)

/-- R117, R21: without room a pending ENCODE or FLUSH holds: BUSY and STALL read 1 and the engine's turn changes nothing;
each OUT_DATA read that pops frees one byte and leaves the need; with room STALL reads 0. -/
def Obligations.HoldUntilTheHostReads : Prop :=
  ∀ (s : State) (p : Pending), s.pend = some p → p.op = .encode ∨ p.op = .flush →
    (Config.dOut < s.outLevel + s.bytesNeeded p →
      s.engineStep = s ∧ s.statusWord.getLsbD 0 = true ∧ s.statusWord.getLsbD 7 = true) ∧
    (s.outLevel + s.bytesNeeded p ≤ Config.dOut → s.engineStep = s.complete p ∧ s.statusWord.getLsbD 7 = false) ∧
    (0 < s.outLevel →
      (s.hostRead Reg.outData.index).outLevel + 1 = s.outLevel ∧ (s.hostRead Reg.outData.index).pend = some p ∧
      (s.hostRead Reg.outData.index).bytesNeeded p = s.bytesNeeded p)

/-- R115: after FLUSH in packed form the payload's bits are the emitted code bits followed by the least number of 0 bits
that fills a byte; in textual form FLUSH pushes nothing. (The payload starts with the bytes the host has read, the model's
record, log 12.) -/
def Obligations.FlushPadsTheLastByte : Prop :=
  ∀ (s : State) (p : Pending), s.phase = .encoding →
    (s.encFmt = .packed →
      (s.completeFlush p).payload.flatMap byteBits =
        s.emitted ++ List.replicate ((8 - s.emitted.length % 8) % 8) false) ∧
    (s.encFmt = .textual → (s.completeFlush p).payload = s.payload)

/-- R40: ENC_FMT changes only at the completion of an ENCODE or FLUSH that finds PHASE = CODED, to that command's PEND.FMT,
and at CLEAR and reset, to 0; PEND.FMT is CTRL.FMT as sampled at acceptance. -/
def Obligations.FormatIsLatchedOnce : Prop :=
  (∀ s t : State, step s = .next t →
    t.encFmt = s.encFmt ∨ RunStart t ∨
    (s.nextTurn = .engine ∧ s.phase = .coded ∧ ∃ p, s.pend = some p ∧ (p.op = .encode ∨ p.op = .flush) ∧
      t.encFmt = p.fmt)) ∧
  (∀ (i : Instr) (s t : State) (p : Pending), s.busy = false → exec i s = .next t → t.pend = some p → p.fmt = s.fmt)

/-- R122, R110: decoding by the tree gives back the encoded symbols. With a valid code table, the codes of any sequence of
symbols that have codes decode to that sequence. And after any pass 2, from CODED to DONE, that encodes the symbols ys,
in either form and however the host drained the FIFO: the first OUTBITS bits of the payload are the codes of ys, in
order, and decoding them by the tree of the final state gives ys. (The payload reads the model's record of the bytes the
host has read, log 12.) -/
def Obligations.RoundTrip : Prop :=
  ∀ s : State, Inv s → s.codesV = true →
    (∀ ys : List Symbol, (∀ y ∈ ys, s.lenAt y ≠ 0#8) → s.decodeBits (ys.flatMap s.codeBits) = ys) ∧
    ∀ (ys : List Symbol) (t : State), PassTwo s ys t → t.phase = .done →
      t.outputBits = ys.flatMap s.codeBits ∧ t.outputBits.length = t.outBits.toNat ∧ t.decodeOutput = ys

/-- R121: when pass 2 has encoded a stream ys whose symbol counts are FREQ, as pass 1's own stream has, then ENC_N = TOTAL
and OUTBITS = WSUM, so the reported average code length is OUTBITS / ENC_N too; FREQ, TOTAL and WSUM are those of the
start of pass 2. Behind it, for any such stream: the sum of the code lengths over the stream is Σ FREQ × LEN, and the
stream has TOTAL symbols. -/
def Obligations.WeightedAverage : Prop :=
  (∀ (s t : State) (ys : List Symbol), Inv s → PassTwo s ys t →
    (∀ y : Symbol, ys.count y = (s.freqAt y).toNat) →
    t.encN = t.total ∧ t.outBits = t.wsum ∧
    t.averageLength = some ((t.outBits.toNat : Rat) / (t.encN.toNat : Rat)) ∧
    t.total = s.total ∧ t.wsum = s.wsum ∧ ∀ y : Symbol, t.freqAt y = s.freqAt y) ∧
  (∀ (s : State) (ys : List Symbol), CountsAgree s → (∀ y : Symbol, ys.count y = (s.freqAt y).toNat) →
    (ys.map fun y => (s.lenAt y).toNat).sum = s.weightedLength ∧ ys.length = s.total.toNat)

/-- R119, R120: the report's figures from the block's integers: the compression ratio is OUTBITS / INBITS with
INBITS = 8 × ENC_N when ENC_N > 0, the average length is WSUM / TOTAL, and the compression percentage
100 × (8 × TOTAL − WSUM) / (8 × TOTAL). -/
def Obligations.ReportFigures : Prop :=
  ∀ s : State,
    s.inBits.toNat = 8 * s.encN.toNat ∧
    (s.encN ≠ 0#32 → s.compressionRatio = some ((s.outBits.toNat : Rat) / (8 * s.encN.toNat : Rat)) ∧
      s.outputPercentage = some (100 * (s.outBits.toNat : Rat) / (8 * s.encN.toNat : Rat))) ∧
    (s.outBits ≠ 0#64 → s.inputOutputRatio = some ((8 * s.encN.toNat : Rat) / (s.outBits.toNat : Rat))) ∧
    (s.codesV = true → s.total ≠ 0#32 →
      s.averageLength = some ((s.wsum.toNat : Rat) / (s.total.toNat : Rat)) ∧
      s.compressionPercentage =
        some (100 * (8 * (s.total.toNat : Rat) - (s.wsum.toNat : Rat)) / (8 * (s.total.toNat : Rat))))

/-! ## Host port (spec/10_state.md, spec/40_host_port.md) -/

/-- R17, R77: ID reads 0x48554631; an offset 0x6C to 0xFC reads 0x00000000, a write to it has no effect, and neither
changes the block's state. (The value last read is the model's own field, log 12.) -/
def Obligations.IdAndReservedOffsets : Prop :=
  ∀ s : State, s.readValue 0#6 = 0x48554631#32 ∧
    ∀ i : RegIndex, 0x6C ≤ byteOffset i →
      s.readValue i = 0x00000000#32 ∧ s.hostRead i = { s with readData := 0x00000000#32 } ∧
      ∀ v : Word, s.hostWrite i v = .next s

/-- R15, R23, R27, R30, R35, R48: what the registers at their offsets read; ERR reads the codes of R123. -/
def Obligations.RegisterMap : Prop :=
  ∀ s : State,
    (s.readValue 1#6).toNat = (if s.fmt = .textual then 1 else 0) ∧
    s.readValue 2#6 = 0#32 ∧ s.readValue 3#6 = s.statusWord ∧
    (s.readValue 4#6).toNat =
      (match s.errCode with
        | .none => 0
        | .emptyInput => 1
        | .unknownSymbol => 2
        | .sequence => 3
        | .illegalCmd => 4
        | .cmdWhileBusy => 5
        | .countOverflow => 6) ∧
    s.readValue 5#6 = s.total ∧ (s.readValue 6#6).toNat = s.nsym.toNat ∧
    (s.readValue 7#6).toNat = (if s.treeV then 2 ^ 31 else 0) + s.root.toNat ∧
    (s.readValue 8#6).toNat = (if s.codesV then 2 ^ 31 else 0) + s.maxLen.toNat ∧
    (s.readValue 10#6).toNat * 2 ^ 32 + (s.readValue 9#6).toNat = s.wsum.toNat ∧
    s.readValue 11#6 = s.encN ∧
    (s.readValue 13#6).toNat * 2 ^ 32 + (s.readValue 12#6).toNat = 8 * s.encN.toNat ∧
    (s.readValue 15#6).toNat * 2 ^ 32 + (s.readValue 14#6).toNat = s.outBits.toNat ∧
    (∀ i : Fin 9, s.readValue (BitVec.ofNat 6 (17 + i.val)) = s.res[i]) ∧
    s.readValue 26#6 = s.errCmd

/-- R21, R20: the fields of STATUS, bit by bit, with the values of PHASE. -/
def Obligations.StatusLayout : Prop :=
  ∀ s : State, s.outLevel ≤ 4095 →
    s.statusWord.toNat =
      (if s.busy then 1 else 0) +
      2 * (match s.phase with
        | .count => 0
        | .built => 1
        | .coded => 2
        | .encoding => 3
        | .done => 4
        | .error => 7) +
      (if s.errCode ≠ .none then 2 ^ 4 else 0) +
      (if s.treeV = true ∧ s.nsym = 1#9 then 2 ^ 5 else 0) + (if s.encFmt = .textual then 2 ^ 6 else 0) +
      (if s.stall then 2 ^ 7 else 0) + 2 ^ 8 * s.accN.toNat + 2 ^ 12 * s.outLevel

/-- R38, R75, R16: a read of OUT_DATA with a byte in the FIFO returns VALID and the head and pops it; on an empty FIFO it
returns 0 and pops nothing; a read of any other register returns its value; at every PHASE and BUSY, and no other state
of the block changes. The clauses on `readData`, the value returned, and on `outRead`, the bytes read in the run, rest on
the model's own fields (log 12). -/
def Obligations.HostReads : Prop :=
  ∀ s : State,
    (∀ b rest, s.fifo = b :: rest →
      s.hostRead Reg.outData.index =
        { s with readData := BitVec.ofNat 32 (256 + b.toNat), fifo := rest, outRead := s.outRead ++ [b] }) ∧
    (s.fifo = [] → s.hostRead Reg.outData.index = { s with readData := 0#32 }) ∧
    (∀ i : RegIndex, i ≠ Reg.outData.index → s.hostRead i = { s with readData := s.readValue i })

/-- R76: a write to CMD is the acceptance of the word; a write to CTRL sets FMT to bit 0, at every PHASE and BUSY, and
changes nothing else; a write to any other register has no effect. -/
def Obligations.HostWrites : Prop :=
  ∀ (s : State) (v : Word),
    s.hostWrite 2#6 v = acceptWord v s ∧
    s.hostWrite 1#6 v = .next { s with fmt := if v.toNat % 2 = 1 then .textual else .packed } ∧
    ∀ i : RegIndex, i ≠ 1#6 → i ≠ 2#6 → s.hostWrite i v = .next s

/-- R57, R81: while a deferred command is pending, no step of the host other than a CMD write changes anything but the
FIFO by a pop, CTRL, and the host's own side. -/
def Obligations.PendingShowsTheStateBefore : Prop :=
  ∀ s t : State, s.nextTurn = .host → (∀ w, ¬ s.writesCommand w) → step s = .next t →
    t = { s with fmt := t.fmt, fifo := t.fifo, prog := t.prog, readData := t.readData, outRead := t.outRead,
                 turns := t.turns } ∧
    (t.fifo = s.fifo ∨ ∃ b, s.fifo = b :: t.fifo)

/-- R73: a DRAIN with the host's turns reads every byte of the FIFO, in order, and ends after the read that finds it
empty. One read of a WAIT loop: the statement stays while STATUS reads BUSY = 1 and ends with BUSY = 0, and the block is
unchanged. -/
def Obligations.WaitAndDrainLoops : Prop :=
  (∀ (s : State) (rest : List HostOp) (more : List Turn), s.prog = .drain :: rest →
    s.turns = List.replicate (s.fifo.length + 1) .host ++ more →
    Host.Core.run Sys2Proof.core (s.fifo.length + 1) s =
      .next { s with fifo := [], outRead := s.outRead ++ s.fifo, readData := 0#32, prog := rest, turns := more }) ∧
  (∀ (s : State) (rest : List HostOp), s.nextTurn = .host → s.prog = .wait :: rest →
    step s = .next { s with readData := s.statusWord, turns := s.turns.tail,
                            prog := if s.busy then .wait :: rest else rest })

/-! ## Invariants (spec/10_state.md rule R45) -/

/-- R45, R44: every invariant holds right after reset. The clause that the host has read no byte of the run before pass 2
(`NothingEncoded.outRead`) is the model's own, not R44's or R45's (log 12). -/
def Obligations.InvariantAtReset : Prop := Inv State.reset

/-- R24, R25, R45: TOTAL = Σ FREQ and NSYM = the number of counted symbols, kept by every step. -/
def Obligations.CountsAreKept : Prop :=
  ∀ s t : State, CountsAgree s → step s = .next t → CountsAgree t

/-- R20, R23, R45: PHASE agrees with TREE_V, CODES_V, ERR and the pending command, kept by every step. -/
def Obligations.PhaseIsKept : Prop :=
  ∀ s t : State, PhaseAgrees s → step s = .next t → PhaseAgrees t

/-- R36, R37, R39, R45: the accumulator, the FIFO within D_OUT and the encoder's statistics agree, kept by every step. The
clause on the bytes the host has read before pass 2 is the model's own (log 12). -/
def Obligations.EncoderIsKept : Prop :=
  ∀ s t : State, PhaseAgrees s → EncoderAgrees s → step s = .next t → EncoderAgrees t

/-- R115, R110: the output has OUTBITS code bits while encoding and ceil(OUTBITS / 8) packed or OUTBITS textual bytes when
done, kept by every step. The output is the bytes the host has read in the run, which the model records (log 12), and
those in the FIFO. -/
def Obligations.OutputLengthIsKept : Prop :=
  ∀ s t : State, PhaseAgrees s → EncoderAgrees s → OutputAgrees s → step s = .next t → OutputAgrees t

/-- R45: every step keeps all the invariants: counts, phases, the tree and the code table stored, the encoder and the
length of the output. The clauses on the bytes the host has read rest on the model's own record of them (log 12). -/
def Obligations.InvariantIsKept : Prop :=
  ∀ s t : State, Inv s → step s = .next t → Inv t
end

