-- ==== Sys2Proof/Laws/Codec.lean ====
section
/-!
SUPPORT. The fields of a command word and the word of its fields are inverse to each other, and decode by fields
(spec/30_encoding.md rules R63, R69).
-/

namespace Sys2Proof

/-- Concatenation as a sum: the left part is the more significant (R10). -/
theorem toNat_append_eq {v w : Nat} (x : BitVec v) (y : BitVec w) : (x ++ y).toNat = x.toNat * 2 ^ w + y.toNat := by
  rw [BitVec.toNat_append, ← Nat.shiftLeft_add_eq_or_of_lt y.isLt, Nat.shiftLeft_eq]

/-- Cutting a word and joining its fields gives the word back. -/
@[simp] theorem CommandFields.toWord_ofWord (w : Word) : (CommandFields.ofWord w).toWord = w := by
  apply BitVec.eq_of_getLsbD_eq
  intro i hi
  simp only [CommandFields.toWord, CommandFields.ofWord, BitVec.getLsbD_append, BitVec.getLsbD_extractLsb']
  rcases Nat.lt_or_ge i 8 with h | h
  · simp [h]
  · rcases Nat.lt_or_ge (i - 8) 9 with h' | h'
    · have : ¬ i < 8 := by omega
      have e : 8 + (i - 8) = i := by omega
      simp only [this, h', e, ite_false, ite_true, decide_true, Bool.true_and]
    · have : ¬ i < 8 := by omega
      have h'' : ¬ i - 8 < 9 := by omega
      have h3 : i - 8 - 9 < 15 := by omega
      have e : 17 + (i - 8 - 9) = i := by omega
      simp only [this, h'', h3, e, ite_false, decide_true, Bool.true_and]

/-- Joining fields and cutting the word gives the fields back. -/
@[simp] theorem CommandFields.ofWord_toWord (f : CommandFields) : CommandFields.ofWord f.toWord = f := by
  obtain ⟨op, arg, rsv⟩ := f
  simp only [CommandFields.toWord, CommandFields.ofWord, CommandFields.mk.injEq]
  refine ⟨?_, ?_, ?_⟩ <;> apply BitVec.eq_of_getLsbD_eq <;> intro i hi <;>
    simp only [BitVec.getLsbD_append, BitVec.getLsbD_extractLsb', hi, decide_true, Bool.true_and]
  · simp [hi]
  · have : ¬ 8 + i < 8 := by omega
    simp [hi]
  · have : ¬ 17 + i < 8 := by omega
    have h' : ¬ 17 + i - 8 < 9 := by omega
    have e : 17 + i - 8 - 9 = i := by omega
    simp only [this, h', e, ite_false]

/-- The word of some fields determines them. -/
theorem CommandFields.toWord_inj {f g : CommandFields} (h : f.toWord = g.toWord) : f = g := by
  rw [← CommandFields.ofWord_toWord f, h, CommandFields.ofWord_toWord]

/-- The fields of an encoded command are the command's. -/
@[simp] theorem ofWord_encodeWord (i : Instr) : CommandFields.ofWord (encodeWord i) = i.fields := by
  simp [encodeWord]

end Sys2Proof
end

