-- ==== Sys2Proof/Laws/State.lean ====
section
/-!
SUPPORT. One lemma per field per update of State, each true by rfl, so that no later proof unfolds a record update.
-/

namespace Sys2Proof.Machine

/-! ## setFreq (R26) -/

@[simp] theorem State.setFreq_fmt (s : State) (y : Symbol) (v : Word) : (s.setFreq y v).fmt = s.fmt := rfl
@[simp] theorem State.setFreq_phase (s : State) (y : Symbol) (v : Word) : (s.setFreq y v).phase = s.phase := rfl
@[simp] theorem State.setFreq_pend (s : State) (y : Symbol) (v : Word) : (s.setFreq y v).pend = s.pend := rfl
@[simp] theorem State.setFreq_errCode (s : State) (y : Symbol) (v : Word) : (s.setFreq y v).errCode = s.errCode := rfl
@[simp] theorem State.setFreq_errCmd (s : State) (y : Symbol) (v : Word) : (s.setFreq y v).errCmd = s.errCmd := rfl
@[simp] theorem State.setFreq_freq (s : State) (y : Symbol) (v : Word) : (s.setFreq y v).freq = s.freq.set y.toNat v (y.isLt) := rfl
@[simp] theorem State.setFreq_total (s : State) (y : Symbol) (v : Word) : (s.setFreq y v).total = s.total := rfl
@[simp] theorem State.setFreq_nsym (s : State) (y : Symbol) (v : Word) : (s.setFreq y v).nsym = s.nsym := rfl
@[simp] theorem State.setFreq_treeV (s : State) (y : Symbol) (v : Word) : (s.setFreq y v).treeV = s.treeV := rfl
@[simp] theorem State.setFreq_root (s : State) (y : Symbol) (v : Word) : (s.setFreq y v).root = s.root := rfl
@[simp] theorem State.setFreq_node (s : State) (y : Symbol) (v : Word) : (s.setFreq y v).node = s.node := rfl
@[simp] theorem State.setFreq_codesV (s : State) (y : Symbol) (v : Word) : (s.setFreq y v).codesV = s.codesV := rfl
@[simp] theorem State.setFreq_maxLen (s : State) (y : Symbol) (v : Word) : (s.setFreq y v).maxLen = s.maxLen := rfl
@[simp] theorem State.setFreq_wsum (s : State) (y : Symbol) (v : Word) : (s.setFreq y v).wsum = s.wsum := rfl
@[simp] theorem State.setFreq_len (s : State) (y : Symbol) (v : Word) : (s.setFreq y v).len = s.len := rfl
@[simp] theorem State.setFreq_code (s : State) (y : Symbol) (v : Word) : (s.setFreq y v).code = s.code := rfl
@[simp] theorem State.setFreq_encFmt (s : State) (y : Symbol) (v : Word) : (s.setFreq y v).encFmt = s.encFmt := rfl
@[simp] theorem State.setFreq_acc (s : State) (y : Symbol) (v : Word) : (s.setFreq y v).acc = s.acc := rfl
@[simp] theorem State.setFreq_accN (s : State) (y : Symbol) (v : Word) : (s.setFreq y v).accN = s.accN := rfl
@[simp] theorem State.setFreq_encN (s : State) (y : Symbol) (v : Word) : (s.setFreq y v).encN = s.encN := rfl
@[simp] theorem State.setFreq_outBits (s : State) (y : Symbol) (v : Word) : (s.setFreq y v).outBits = s.outBits := rfl
@[simp] theorem State.setFreq_fifo (s : State) (y : Symbol) (v : Word) : (s.setFreq y v).fifo = s.fifo := rfl
@[simp] theorem State.setFreq_res (s : State) (y : Symbol) (v : Word) : (s.setFreq y v).res = s.res := rfl
@[simp] theorem State.setFreq_free (s : State) (y : Symbol) (v : Word) : (s.setFreq y v).free = s.free := rfl
@[simp] theorem State.setFreq_prog (s : State) (y : Symbol) (v : Word) : (s.setFreq y v).prog = s.prog := rfl
@[simp] theorem State.setFreq_readData (s : State) (y : Symbol) (v : Word) : (s.setFreq y v).readData = s.readData := rfl
@[simp] theorem State.setFreq_outRead (s : State) (y : Symbol) (v : Word) : (s.setFreq y v).outRead = s.outRead := rfl
@[simp] theorem State.setFreq_turns (s : State) (y : Symbol) (v : Word) : (s.setFreq y v).turns = s.turns := rfl

@[simp] theorem State.setFreq_lenAt (s : State) (y : Symbol) (v : Word) (z : Symbol) : (s.setFreq y v).lenAt z = s.lenAt z := rfl
@[simp] theorem State.setFreq_codeAt (s : State) (y : Symbol) (v : Word) (z : Symbol) : (s.setFreq y v).codeAt z = s.codeAt z := rfl

/-! ## raise (R128) -/

@[simp] theorem State.raise_fmt (s : State) (e : ErrorCode) (w : Word) : (s.raise e w).fmt = s.fmt := rfl
@[simp] theorem State.raise_phase (s : State) (e : ErrorCode) (w : Word) : (s.raise e w).phase = .error := rfl
@[simp] theorem State.raise_pend (s : State) (e : ErrorCode) (w : Word) : (s.raise e w).pend = none := rfl
@[simp] theorem State.raise_errCode (s : State) (e : ErrorCode) (w : Word) : (s.raise e w).errCode = if s.errCode = .none then e else s.errCode := rfl
@[simp] theorem State.raise_errCmd (s : State) (e : ErrorCode) (w : Word) : (s.raise e w).errCmd = if s.errCode = .none then w else s.errCmd := rfl
@[simp] theorem State.raise_freq (s : State) (e : ErrorCode) (w : Word) : (s.raise e w).freq = s.freq := rfl
@[simp] theorem State.raise_total (s : State) (e : ErrorCode) (w : Word) : (s.raise e w).total = s.total := rfl
@[simp] theorem State.raise_nsym (s : State) (e : ErrorCode) (w : Word) : (s.raise e w).nsym = s.nsym := rfl
@[simp] theorem State.raise_treeV (s : State) (e : ErrorCode) (w : Word) : (s.raise e w).treeV = s.treeV := rfl
@[simp] theorem State.raise_root (s : State) (e : ErrorCode) (w : Word) : (s.raise e w).root = s.root := rfl
@[simp] theorem State.raise_node (s : State) (e : ErrorCode) (w : Word) : (s.raise e w).node = s.node := rfl
@[simp] theorem State.raise_codesV (s : State) (e : ErrorCode) (w : Word) : (s.raise e w).codesV = s.codesV := rfl
@[simp] theorem State.raise_maxLen (s : State) (e : ErrorCode) (w : Word) : (s.raise e w).maxLen = s.maxLen := rfl
@[simp] theorem State.raise_wsum (s : State) (e : ErrorCode) (w : Word) : (s.raise e w).wsum = s.wsum := rfl
@[simp] theorem State.raise_len (s : State) (e : ErrorCode) (w : Word) : (s.raise e w).len = s.len := rfl
@[simp] theorem State.raise_code (s : State) (e : ErrorCode) (w : Word) : (s.raise e w).code = s.code := rfl
@[simp] theorem State.raise_encFmt (s : State) (e : ErrorCode) (w : Word) : (s.raise e w).encFmt = s.encFmt := rfl
@[simp] theorem State.raise_acc (s : State) (e : ErrorCode) (w : Word) : (s.raise e w).acc = 0#8 := rfl
@[simp] theorem State.raise_accN (s : State) (e : ErrorCode) (w : Word) : (s.raise e w).accN = 0#3 := rfl
@[simp] theorem State.raise_encN (s : State) (e : ErrorCode) (w : Word) : (s.raise e w).encN = s.encN := rfl
@[simp] theorem State.raise_outBits (s : State) (e : ErrorCode) (w : Word) : (s.raise e w).outBits = s.outBits := rfl
@[simp] theorem State.raise_fifo (s : State) (e : ErrorCode) (w : Word) : (s.raise e w).fifo = [] := rfl
@[simp] theorem State.raise_res (s : State) (e : ErrorCode) (w : Word) : (s.raise e w).res = s.res := rfl
@[simp] theorem State.raise_free (s : State) (e : ErrorCode) (w : Word) : (s.raise e w).free = s.free := rfl
@[simp] theorem State.raise_prog (s : State) (e : ErrorCode) (w : Word) : (s.raise e w).prog = s.prog := rfl
@[simp] theorem State.raise_readData (s : State) (e : ErrorCode) (w : Word) : (s.raise e w).readData = s.readData := rfl
@[simp] theorem State.raise_outRead (s : State) (e : ErrorCode) (w : Word) : (s.raise e w).outRead = s.outRead := rfl
@[simp] theorem State.raise_turns (s : State) (e : ErrorCode) (w : Word) : (s.raise e w).turns = s.turns := rfl

@[simp] theorem State.raise_freqAt (s : State) (e : ErrorCode) (w : Word) (z : Symbol) : (s.raise e w).freqAt z = s.freqAt z := rfl
@[simp] theorem State.raise_lenAt (s : State) (e : ErrorCode) (w : Word) (z : Symbol) : (s.raise e w).lenAt z = s.lenAt z := rfl
@[simp] theorem State.raise_codeAt (s : State) (e : ErrorCode) (w : Word) (z : Symbol) : (s.raise e w).codeAt z = s.codeAt z := rfl

/-! ## clear (R83) -/

@[simp] theorem State.clear_fmt (s : State) : (s.clear).fmt = s.fmt := rfl
@[simp] theorem State.clear_phase (s : State) : (s.clear).phase = .count := rfl
@[simp] theorem State.clear_pend (s : State) : (s.clear).pend = none := rfl
@[simp] theorem State.clear_errCode (s : State) : (s.clear).errCode = .none := rfl
@[simp] theorem State.clear_errCmd (s : State) : (s.clear).errCmd = 0#32 := rfl
@[simp] theorem State.clear_freq (s : State) : (s.clear).freq = Vector.replicate 256 0#32 := rfl
@[simp] theorem State.clear_total (s : State) : (s.clear).total = 0#32 := rfl
@[simp] theorem State.clear_nsym (s : State) : (s.clear).nsym = 0#9 := rfl
@[simp] theorem State.clear_treeV (s : State) : (s.clear).treeV = false := rfl
@[simp] theorem State.clear_root (s : State) : (s.clear).root = 0#9 := rfl
@[simp] theorem State.clear_node (s : State) : (s.clear).node = freeNodes s.free := rfl
@[simp] theorem State.clear_codesV (s : State) : (s.clear).codesV = false := rfl
@[simp] theorem State.clear_maxLen (s : State) : (s.clear).maxLen = 0#8 := rfl
@[simp] theorem State.clear_wsum (s : State) : (s.clear).wsum = 0#64 := rfl
@[simp] theorem State.clear_len (s : State) : (s.clear).len = Vector.replicate 256 0#8 := rfl
@[simp] theorem State.clear_code (s : State) : (s.clear).code = freeCodes s.free := rfl
@[simp] theorem State.clear_encFmt (s : State) : (s.clear).encFmt = .packed := rfl
@[simp] theorem State.clear_acc (s : State) : (s.clear).acc = 0#8 := rfl
@[simp] theorem State.clear_accN (s : State) : (s.clear).accN = 0#3 := rfl
@[simp] theorem State.clear_encN (s : State) : (s.clear).encN = 0#32 := rfl
@[simp] theorem State.clear_outBits (s : State) : (s.clear).outBits = 0#64 := rfl
@[simp] theorem State.clear_fifo (s : State) : (s.clear).fifo = [] := rfl
@[simp] theorem State.clear_res (s : State) : (s.clear).res = Vector.replicate 9 0#32 := rfl
@[simp] theorem State.clear_free (s : State) : (s.clear).free = s.free + 1 := rfl
@[simp] theorem State.clear_prog (s : State) : (s.clear).prog = s.prog := rfl
@[simp] theorem State.clear_readData (s : State) : (s.clear).readData = s.readData := rfl
@[simp] theorem State.clear_outRead (s : State) : (s.clear).outRead = [] := rfl
@[simp] theorem State.clear_turns (s : State) : (s.clear).turns = s.turns := rfl


/-! ## applyReset (R139) -/

@[simp] theorem State.applyReset_fmt (s : State) : (s.applyReset).fmt = .packed := rfl
@[simp] theorem State.applyReset_phase (s : State) : (s.applyReset).phase = .count := rfl
@[simp] theorem State.applyReset_pend (s : State) : (s.applyReset).pend = none := rfl
@[simp] theorem State.applyReset_errCode (s : State) : (s.applyReset).errCode = .none := rfl
@[simp] theorem State.applyReset_errCmd (s : State) : (s.applyReset).errCmd = 0#32 := rfl
@[simp] theorem State.applyReset_freq (s : State) : (s.applyReset).freq = Vector.replicate 256 0#32 := rfl
@[simp] theorem State.applyReset_total (s : State) : (s.applyReset).total = 0#32 := rfl
@[simp] theorem State.applyReset_nsym (s : State) : (s.applyReset).nsym = 0#9 := rfl
@[simp] theorem State.applyReset_treeV (s : State) : (s.applyReset).treeV = false := rfl
@[simp] theorem State.applyReset_root (s : State) : (s.applyReset).root = 0#9 := rfl
@[simp] theorem State.applyReset_node (s : State) : (s.applyReset).node = freeNodes s.free := rfl
@[simp] theorem State.applyReset_codesV (s : State) : (s.applyReset).codesV = false := rfl
@[simp] theorem State.applyReset_maxLen (s : State) : (s.applyReset).maxLen = 0#8 := rfl
@[simp] theorem State.applyReset_wsum (s : State) : (s.applyReset).wsum = 0#64 := rfl
@[simp] theorem State.applyReset_len (s : State) : (s.applyReset).len = Vector.replicate 256 0#8 := rfl
@[simp] theorem State.applyReset_code (s : State) : (s.applyReset).code = freeCodes s.free := rfl
@[simp] theorem State.applyReset_encFmt (s : State) : (s.applyReset).encFmt = .packed := rfl
@[simp] theorem State.applyReset_acc (s : State) : (s.applyReset).acc = 0#8 := rfl
@[simp] theorem State.applyReset_accN (s : State) : (s.applyReset).accN = 0#3 := rfl
@[simp] theorem State.applyReset_encN (s : State) : (s.applyReset).encN = 0#32 := rfl
@[simp] theorem State.applyReset_outBits (s : State) : (s.applyReset).outBits = 0#64 := rfl
@[simp] theorem State.applyReset_fifo (s : State) : (s.applyReset).fifo = [] := rfl
@[simp] theorem State.applyReset_res (s : State) : (s.applyReset).res = Vector.replicate 9 0#32 := rfl
@[simp] theorem State.applyReset_free (s : State) : (s.applyReset).free = s.free + 1 := rfl
@[simp] theorem State.applyReset_prog (s : State) : (s.applyReset).prog = s.prog := rfl
@[simp] theorem State.applyReset_readData (s : State) : (s.applyReset).readData = s.readData := rfl
@[simp] theorem State.applyReset_outRead (s : State) : (s.applyReset).outRead = [] := rfl
@[simp] theorem State.applyReset_turns (s : State) : (s.applyReset).turns = s.turns := rfl


/-! ## defer (R81) -/

@[simp] theorem State.defer_fmt (s : State) (op : DeferredOp) (a : Arg) : (s.defer op a).fmt = s.fmt := rfl
@[simp] theorem State.defer_phase (s : State) (op : DeferredOp) (a : Arg) : (s.defer op a).phase = s.phase := rfl
@[simp] theorem State.defer_pend (s : State) (op : DeferredOp) (a : Arg) : (s.defer op a).pend = some { op := op, arg := a, fmt := s.fmt } := rfl
@[simp] theorem State.defer_errCode (s : State) (op : DeferredOp) (a : Arg) : (s.defer op a).errCode = s.errCode := rfl
@[simp] theorem State.defer_errCmd (s : State) (op : DeferredOp) (a : Arg) : (s.defer op a).errCmd = s.errCmd := rfl
@[simp] theorem State.defer_freq (s : State) (op : DeferredOp) (a : Arg) : (s.defer op a).freq = s.freq := rfl
@[simp] theorem State.defer_total (s : State) (op : DeferredOp) (a : Arg) : (s.defer op a).total = s.total := rfl
@[simp] theorem State.defer_nsym (s : State) (op : DeferredOp) (a : Arg) : (s.defer op a).nsym = s.nsym := rfl
@[simp] theorem State.defer_treeV (s : State) (op : DeferredOp) (a : Arg) : (s.defer op a).treeV = s.treeV := rfl
@[simp] theorem State.defer_root (s : State) (op : DeferredOp) (a : Arg) : (s.defer op a).root = s.root := rfl
@[simp] theorem State.defer_node (s : State) (op : DeferredOp) (a : Arg) : (s.defer op a).node = s.node := rfl
@[simp] theorem State.defer_codesV (s : State) (op : DeferredOp) (a : Arg) : (s.defer op a).codesV = s.codesV := rfl
@[simp] theorem State.defer_maxLen (s : State) (op : DeferredOp) (a : Arg) : (s.defer op a).maxLen = s.maxLen := rfl
@[simp] theorem State.defer_wsum (s : State) (op : DeferredOp) (a : Arg) : (s.defer op a).wsum = s.wsum := rfl
@[simp] theorem State.defer_len (s : State) (op : DeferredOp) (a : Arg) : (s.defer op a).len = s.len := rfl
@[simp] theorem State.defer_code (s : State) (op : DeferredOp) (a : Arg) : (s.defer op a).code = s.code := rfl
@[simp] theorem State.defer_encFmt (s : State) (op : DeferredOp) (a : Arg) : (s.defer op a).encFmt = s.encFmt := rfl
@[simp] theorem State.defer_acc (s : State) (op : DeferredOp) (a : Arg) : (s.defer op a).acc = s.acc := rfl
@[simp] theorem State.defer_accN (s : State) (op : DeferredOp) (a : Arg) : (s.defer op a).accN = s.accN := rfl
@[simp] theorem State.defer_encN (s : State) (op : DeferredOp) (a : Arg) : (s.defer op a).encN = s.encN := rfl
@[simp] theorem State.defer_outBits (s : State) (op : DeferredOp) (a : Arg) : (s.defer op a).outBits = s.outBits := rfl
@[simp] theorem State.defer_fifo (s : State) (op : DeferredOp) (a : Arg) : (s.defer op a).fifo = s.fifo := rfl
@[simp] theorem State.defer_res (s : State) (op : DeferredOp) (a : Arg) : (s.defer op a).res = s.res := rfl
@[simp] theorem State.defer_free (s : State) (op : DeferredOp) (a : Arg) : (s.defer op a).free = s.free := rfl
@[simp] theorem State.defer_prog (s : State) (op : DeferredOp) (a : Arg) : (s.defer op a).prog = s.prog := rfl
@[simp] theorem State.defer_readData (s : State) (op : DeferredOp) (a : Arg) : (s.defer op a).readData = s.readData := rfl
@[simp] theorem State.defer_outRead (s : State) (op : DeferredOp) (a : Arg) : (s.defer op a).outRead = s.outRead := rfl
@[simp] theorem State.defer_turns (s : State) (op : DeferredOp) (a : Arg) : (s.defer op a).turns = s.turns := rfl

@[simp] theorem State.defer_freqAt (s : State) (op : DeferredOp) (a : Arg) (z : Symbol) : (s.defer op a).freqAt z = s.freqAt z := rfl
@[simp] theorem State.defer_lenAt (s : State) (op : DeferredOp) (a : Arg) (z : Symbol) : (s.defer op a).lenAt z = s.lenAt z := rfl
@[simp] theorem State.defer_codeAt (s : State) (op : DeferredOp) (a : Arg) (z : Symbol) : (s.defer op a).codeAt z = s.codeAt z := rfl

/-! ## push (R11) -/

@[simp] theorem State.push_fmt (s : State) (b : Byte) : (s.push b).fmt = s.fmt := rfl
@[simp] theorem State.push_phase (s : State) (b : Byte) : (s.push b).phase = s.phase := rfl
@[simp] theorem State.push_pend (s : State) (b : Byte) : (s.push b).pend = s.pend := rfl
@[simp] theorem State.push_errCode (s : State) (b : Byte) : (s.push b).errCode = s.errCode := rfl
@[simp] theorem State.push_errCmd (s : State) (b : Byte) : (s.push b).errCmd = s.errCmd := rfl
@[simp] theorem State.push_freq (s : State) (b : Byte) : (s.push b).freq = s.freq := rfl
@[simp] theorem State.push_total (s : State) (b : Byte) : (s.push b).total = s.total := rfl
@[simp] theorem State.push_nsym (s : State) (b : Byte) : (s.push b).nsym = s.nsym := rfl
@[simp] theorem State.push_treeV (s : State) (b : Byte) : (s.push b).treeV = s.treeV := rfl
@[simp] theorem State.push_root (s : State) (b : Byte) : (s.push b).root = s.root := rfl
@[simp] theorem State.push_node (s : State) (b : Byte) : (s.push b).node = s.node := rfl
@[simp] theorem State.push_codesV (s : State) (b : Byte) : (s.push b).codesV = s.codesV := rfl
@[simp] theorem State.push_maxLen (s : State) (b : Byte) : (s.push b).maxLen = s.maxLen := rfl
@[simp] theorem State.push_wsum (s : State) (b : Byte) : (s.push b).wsum = s.wsum := rfl
@[simp] theorem State.push_len (s : State) (b : Byte) : (s.push b).len = s.len := rfl
@[simp] theorem State.push_code (s : State) (b : Byte) : (s.push b).code = s.code := rfl
@[simp] theorem State.push_encFmt (s : State) (b : Byte) : (s.push b).encFmt = s.encFmt := rfl
@[simp] theorem State.push_acc (s : State) (b : Byte) : (s.push b).acc = s.acc := rfl
@[simp] theorem State.push_accN (s : State) (b : Byte) : (s.push b).accN = s.accN := rfl
@[simp] theorem State.push_encN (s : State) (b : Byte) : (s.push b).encN = s.encN := rfl
@[simp] theorem State.push_outBits (s : State) (b : Byte) : (s.push b).outBits = s.outBits := rfl
@[simp] theorem State.push_fifo (s : State) (b : Byte) : (s.push b).fifo = s.fifo ++ [b] := rfl
@[simp] theorem State.push_res (s : State) (b : Byte) : (s.push b).res = s.res := rfl
@[simp] theorem State.push_free (s : State) (b : Byte) : (s.push b).free = s.free := rfl
@[simp] theorem State.push_prog (s : State) (b : Byte) : (s.push b).prog = s.prog := rfl
@[simp] theorem State.push_readData (s : State) (b : Byte) : (s.push b).readData = s.readData := rfl
@[simp] theorem State.push_outRead (s : State) (b : Byte) : (s.push b).outRead = s.outRead := rfl
@[simp] theorem State.push_turns (s : State) (b : Byte) : (s.push b).turns = s.turns := rfl

@[simp] theorem State.push_freqAt (s : State) (b : Byte) (z : Symbol) : (s.push b).freqAt z = s.freqAt z := rfl
@[simp] theorem State.push_lenAt (s : State) (b : Byte) (z : Symbol) : (s.push b).lenAt z = s.lenAt z := rfl
@[simp] theorem State.push_codeAt (s : State) (b : Byte) (z : Symbol) : (s.push b).codeAt z = s.codeAt z := rfl

/-! ## setRes (R41) -/

@[simp] theorem State.setRes_fmt (s : State) (ws : List Word) : (s.setRes ws).fmt = s.fmt := rfl
@[simp] theorem State.setRes_phase (s : State) (ws : List Word) : (s.setRes ws).phase = s.phase := rfl
@[simp] theorem State.setRes_pend (s : State) (ws : List Word) : (s.setRes ws).pend = s.pend := rfl
@[simp] theorem State.setRes_errCode (s : State) (ws : List Word) : (s.setRes ws).errCode = s.errCode := rfl
@[simp] theorem State.setRes_errCmd (s : State) (ws : List Word) : (s.setRes ws).errCmd = s.errCmd := rfl
@[simp] theorem State.setRes_freq (s : State) (ws : List Word) : (s.setRes ws).freq = s.freq := rfl
@[simp] theorem State.setRes_total (s : State) (ws : List Word) : (s.setRes ws).total = s.total := rfl
@[simp] theorem State.setRes_nsym (s : State) (ws : List Word) : (s.setRes ws).nsym = s.nsym := rfl
@[simp] theorem State.setRes_treeV (s : State) (ws : List Word) : (s.setRes ws).treeV = s.treeV := rfl
@[simp] theorem State.setRes_root (s : State) (ws : List Word) : (s.setRes ws).root = s.root := rfl
@[simp] theorem State.setRes_node (s : State) (ws : List Word) : (s.setRes ws).node = s.node := rfl
@[simp] theorem State.setRes_codesV (s : State) (ws : List Word) : (s.setRes ws).codesV = s.codesV := rfl
@[simp] theorem State.setRes_maxLen (s : State) (ws : List Word) : (s.setRes ws).maxLen = s.maxLen := rfl
@[simp] theorem State.setRes_wsum (s : State) (ws : List Word) : (s.setRes ws).wsum = s.wsum := rfl
@[simp] theorem State.setRes_len (s : State) (ws : List Word) : (s.setRes ws).len = s.len := rfl
@[simp] theorem State.setRes_code (s : State) (ws : List Word) : (s.setRes ws).code = s.code := rfl
@[simp] theorem State.setRes_encFmt (s : State) (ws : List Word) : (s.setRes ws).encFmt = s.encFmt := rfl
@[simp] theorem State.setRes_acc (s : State) (ws : List Word) : (s.setRes ws).acc = s.acc := rfl
@[simp] theorem State.setRes_accN (s : State) (ws : List Word) : (s.setRes ws).accN = s.accN := rfl
@[simp] theorem State.setRes_encN (s : State) (ws : List Word) : (s.setRes ws).encN = s.encN := rfl
@[simp] theorem State.setRes_outBits (s : State) (ws : List Word) : (s.setRes ws).outBits = s.outBits := rfl
@[simp] theorem State.setRes_fifo (s : State) (ws : List Word) : (s.setRes ws).fifo = s.fifo := rfl
@[simp] theorem State.setRes_res (s : State) (ws : List Word) : (s.setRes ws).res = Vector.ofFn fun i => ws.getD i.val 0#32 := rfl
@[simp] theorem State.setRes_free (s : State) (ws : List Word) : (s.setRes ws).free = s.free := rfl
@[simp] theorem State.setRes_prog (s : State) (ws : List Word) : (s.setRes ws).prog = s.prog := rfl
@[simp] theorem State.setRes_readData (s : State) (ws : List Word) : (s.setRes ws).readData = s.readData := rfl
@[simp] theorem State.setRes_outRead (s : State) (ws : List Word) : (s.setRes ws).outRead = s.outRead := rfl
@[simp] theorem State.setRes_turns (s : State) (ws : List Word) : (s.setRes ws).turns = s.turns := rfl

@[simp] theorem State.setRes_freqAt (s : State) (ws : List Word) (z : Symbol) : (s.setRes ws).freqAt z = s.freqAt z := rfl
@[simp] theorem State.setRes_lenAt (s : State) (ws : List Word) (z : Symbol) : (s.setRes ws).lenAt z = s.lenAt z := rfl
@[simp] theorem State.setRes_codeAt (s : State) (ws : List Word) (z : Symbol) : (s.setRes ws).codeAt z = s.codeAt z := rfl

/-! ## countSymbol (R92) -/

@[simp] theorem State.countSymbol_fmt (s : State) (y : Symbol) : (s.countSymbol y).fmt = s.fmt := rfl
@[simp] theorem State.countSymbol_phase (s : State) (y : Symbol) : (s.countSymbol y).phase = s.phase := rfl
@[simp] theorem State.countSymbol_pend (s : State) (y : Symbol) : (s.countSymbol y).pend = s.pend := rfl
@[simp] theorem State.countSymbol_errCode (s : State) (y : Symbol) : (s.countSymbol y).errCode = s.errCode := rfl
@[simp] theorem State.countSymbol_errCmd (s : State) (y : Symbol) : (s.countSymbol y).errCmd = s.errCmd := rfl
@[simp] theorem State.countSymbol_freq (s : State) (y : Symbol) : (s.countSymbol y).freq = s.freq.set y.toNat (s.freqAt y + 1#32) (y.isLt) := rfl
@[simp] theorem State.countSymbol_total (s : State) (y : Symbol) : (s.countSymbol y).total = s.total + 1#32 := rfl
@[simp] theorem State.countSymbol_nsym (s : State) (y : Symbol) : (s.countSymbol y).nsym = if s.freqAt y = 0#32 then s.nsym + 1#9 else s.nsym := rfl
@[simp] theorem State.countSymbol_treeV (s : State) (y : Symbol) : (s.countSymbol y).treeV = s.treeV := rfl
@[simp] theorem State.countSymbol_root (s : State) (y : Symbol) : (s.countSymbol y).root = s.root := rfl
@[simp] theorem State.countSymbol_node (s : State) (y : Symbol) : (s.countSymbol y).node = s.node := rfl
@[simp] theorem State.countSymbol_codesV (s : State) (y : Symbol) : (s.countSymbol y).codesV = s.codesV := rfl
@[simp] theorem State.countSymbol_maxLen (s : State) (y : Symbol) : (s.countSymbol y).maxLen = s.maxLen := rfl
@[simp] theorem State.countSymbol_wsum (s : State) (y : Symbol) : (s.countSymbol y).wsum = s.wsum := rfl
@[simp] theorem State.countSymbol_len (s : State) (y : Symbol) : (s.countSymbol y).len = s.len := rfl
@[simp] theorem State.countSymbol_code (s : State) (y : Symbol) : (s.countSymbol y).code = s.code := rfl
@[simp] theorem State.countSymbol_encFmt (s : State) (y : Symbol) : (s.countSymbol y).encFmt = s.encFmt := rfl
@[simp] theorem State.countSymbol_acc (s : State) (y : Symbol) : (s.countSymbol y).acc = s.acc := rfl
@[simp] theorem State.countSymbol_accN (s : State) (y : Symbol) : (s.countSymbol y).accN = s.accN := rfl
@[simp] theorem State.countSymbol_encN (s : State) (y : Symbol) : (s.countSymbol y).encN = s.encN := rfl
@[simp] theorem State.countSymbol_outBits (s : State) (y : Symbol) : (s.countSymbol y).outBits = s.outBits := rfl
@[simp] theorem State.countSymbol_fifo (s : State) (y : Symbol) : (s.countSymbol y).fifo = s.fifo := rfl
@[simp] theorem State.countSymbol_res (s : State) (y : Symbol) : (s.countSymbol y).res = s.res := rfl
@[simp] theorem State.countSymbol_free (s : State) (y : Symbol) : (s.countSymbol y).free = s.free := rfl
@[simp] theorem State.countSymbol_prog (s : State) (y : Symbol) : (s.countSymbol y).prog = s.prog := rfl
@[simp] theorem State.countSymbol_readData (s : State) (y : Symbol) : (s.countSymbol y).readData = s.readData := rfl
@[simp] theorem State.countSymbol_outRead (s : State) (y : Symbol) : (s.countSymbol y).outRead = s.outRead := rfl
@[simp] theorem State.countSymbol_turns (s : State) (y : Symbol) : (s.countSymbol y).turns = s.turns := rfl

@[simp] theorem State.countSymbol_lenAt (s : State) (y : Symbol) (z : Symbol) : (s.countSymbol y).lenAt z = s.lenAt z := rfl
@[simp] theorem State.countSymbol_codeAt (s : State) (y : Symbol) (z : Symbol) : (s.countSymbol y).codeAt z = s.codeAt z := rfl

/-! ## completeBuild (R98) -/

@[simp] theorem State.completeBuild_fmt (s : State) : (s.completeBuild).fmt = s.fmt := rfl
@[simp] theorem State.completeBuild_phase (s : State) : (s.completeBuild).phase = .built := rfl
@[simp] theorem State.completeBuild_pend (s : State) : (s.completeBuild).pend = none := rfl
@[simp] theorem State.completeBuild_errCode (s : State) : (s.completeBuild).errCode = s.errCode := rfl
@[simp] theorem State.completeBuild_errCmd (s : State) : (s.completeBuild).errCmd = s.errCmd := rfl
@[simp] theorem State.completeBuild_freq (s : State) : (s.completeBuild).freq = s.freq := rfl
@[simp] theorem State.completeBuild_total (s : State) : (s.completeBuild).total = s.total := rfl
@[simp] theorem State.completeBuild_nsym (s : State) : (s.completeBuild).nsym = s.nsym := rfl
@[simp] theorem State.completeBuild_treeV (s : State) : (s.completeBuild).treeV = true := rfl
@[simp] theorem State.completeBuild_root (s : State) : (s.completeBuild).root = rootOf s.root s.buildTree.2 := rfl
@[simp] theorem State.completeBuild_node (s : State) : (s.completeBuild).node = nodesFrom s.free s.buildTree.1 := rfl
@[simp] theorem State.completeBuild_codesV (s : State) : (s.completeBuild).codesV = s.codesV := rfl
@[simp] theorem State.completeBuild_maxLen (s : State) : (s.completeBuild).maxLen = s.maxLen := rfl
@[simp] theorem State.completeBuild_wsum (s : State) : (s.completeBuild).wsum = s.wsum := rfl
@[simp] theorem State.completeBuild_len (s : State) : (s.completeBuild).len = s.len := rfl
@[simp] theorem State.completeBuild_code (s : State) : (s.completeBuild).code = s.code := rfl
@[simp] theorem State.completeBuild_encFmt (s : State) : (s.completeBuild).encFmt = s.encFmt := rfl
@[simp] theorem State.completeBuild_acc (s : State) : (s.completeBuild).acc = s.acc := rfl
@[simp] theorem State.completeBuild_accN (s : State) : (s.completeBuild).accN = s.accN := rfl
@[simp] theorem State.completeBuild_encN (s : State) : (s.completeBuild).encN = s.encN := rfl
@[simp] theorem State.completeBuild_outBits (s : State) : (s.completeBuild).outBits = s.outBits := rfl
@[simp] theorem State.completeBuild_fifo (s : State) : (s.completeBuild).fifo = s.fifo := rfl
@[simp] theorem State.completeBuild_res (s : State) : (s.completeBuild).res = s.res := rfl
@[simp] theorem State.completeBuild_free (s : State) : (s.completeBuild).free = s.free + 1 := rfl
@[simp] theorem State.completeBuild_prog (s : State) : (s.completeBuild).prog = s.prog := rfl
@[simp] theorem State.completeBuild_readData (s : State) : (s.completeBuild).readData = s.readData := rfl
@[simp] theorem State.completeBuild_outRead (s : State) : (s.completeBuild).outRead = s.outRead := rfl
@[simp] theorem State.completeBuild_turns (s : State) : (s.completeBuild).turns = s.turns := rfl

@[simp] theorem State.completeBuild_freqAt (s : State) (z : Symbol) : (s.completeBuild).freqAt z = s.freqAt z := rfl
@[simp] theorem State.completeBuild_lenAt (s : State) (z : Symbol) : (s.completeBuild).lenAt z = s.lenAt z := rfl
@[simp] theorem State.completeBuild_codeAt (s : State) (z : Symbol) : (s.completeBuild).codeAt z = s.codeAt z := rfl

/-! ## withCodes (R105) -/

@[simp] theorem State.withCodes_fmt (s : State) (as : List (Symbol × List Bool)) : (s.withCodes as).fmt = s.fmt := rfl
@[simp] theorem State.withCodes_phase (s : State) (as : List (Symbol × List Bool)) : (s.withCodes as).phase = s.phase := rfl
@[simp] theorem State.withCodes_pend (s : State) (as : List (Symbol × List Bool)) : (s.withCodes as).pend = s.pend := rfl
@[simp] theorem State.withCodes_errCode (s : State) (as : List (Symbol × List Bool)) : (s.withCodes as).errCode = s.errCode := rfl
@[simp] theorem State.withCodes_errCmd (s : State) (as : List (Symbol × List Bool)) : (s.withCodes as).errCmd = s.errCmd := rfl
@[simp] theorem State.withCodes_freq (s : State) (as : List (Symbol × List Bool)) : (s.withCodes as).freq = s.freq := rfl
@[simp] theorem State.withCodes_total (s : State) (as : List (Symbol × List Bool)) : (s.withCodes as).total = s.total := rfl
@[simp] theorem State.withCodes_nsym (s : State) (as : List (Symbol × List Bool)) : (s.withCodes as).nsym = s.nsym := rfl
@[simp] theorem State.withCodes_treeV (s : State) (as : List (Symbol × List Bool)) : (s.withCodes as).treeV = s.treeV := rfl
@[simp] theorem State.withCodes_root (s : State) (as : List (Symbol × List Bool)) : (s.withCodes as).root = s.root := rfl
@[simp] theorem State.withCodes_node (s : State) (as : List (Symbol × List Bool)) : (s.withCodes as).node = s.node := rfl
@[simp] theorem State.withCodes_codesV (s : State) (as : List (Symbol × List Bool)) : (s.withCodes as).codesV = s.codesV := rfl
@[simp] theorem State.withCodes_maxLen (s : State) (as : List (Symbol × List Bool)) : (s.withCodes as).maxLen = s.maxLen := rfl
@[simp] theorem State.withCodes_wsum (s : State) (as : List (Symbol × List Bool)) : (s.withCodes as).wsum = s.wsum := rfl
@[simp] theorem State.withCodes_len (s : State) (as : List (Symbol × List Bool)) : (s.withCodes as).len = lengthsFrom as := rfl
@[simp] theorem State.withCodes_code (s : State) (as : List (Symbol × List Bool)) : (s.withCodes as).code = codesFrom s.free as := rfl
@[simp] theorem State.withCodes_encFmt (s : State) (as : List (Symbol × List Bool)) : (s.withCodes as).encFmt = s.encFmt := rfl
@[simp] theorem State.withCodes_acc (s : State) (as : List (Symbol × List Bool)) : (s.withCodes as).acc = s.acc := rfl
@[simp] theorem State.withCodes_accN (s : State) (as : List (Symbol × List Bool)) : (s.withCodes as).accN = s.accN := rfl
@[simp] theorem State.withCodes_encN (s : State) (as : List (Symbol × List Bool)) : (s.withCodes as).encN = s.encN := rfl
@[simp] theorem State.withCodes_outBits (s : State) (as : List (Symbol × List Bool)) : (s.withCodes as).outBits = s.outBits := rfl
@[simp] theorem State.withCodes_fifo (s : State) (as : List (Symbol × List Bool)) : (s.withCodes as).fifo = s.fifo := rfl
@[simp] theorem State.withCodes_res (s : State) (as : List (Symbol × List Bool)) : (s.withCodes as).res = s.res := rfl
@[simp] theorem State.withCodes_free (s : State) (as : List (Symbol × List Bool)) : (s.withCodes as).free = s.free + 1 := rfl
@[simp] theorem State.withCodes_prog (s : State) (as : List (Symbol × List Bool)) : (s.withCodes as).prog = s.prog := rfl
@[simp] theorem State.withCodes_readData (s : State) (as : List (Symbol × List Bool)) : (s.withCodes as).readData = s.readData := rfl
@[simp] theorem State.withCodes_outRead (s : State) (as : List (Symbol × List Bool)) : (s.withCodes as).outRead = s.outRead := rfl
@[simp] theorem State.withCodes_turns (s : State) (as : List (Symbol × List Bool)) : (s.withCodes as).turns = s.turns := rfl

@[simp] theorem State.withCodes_freqAt (s : State) (as : List (Symbol × List Bool)) (z : Symbol) : (s.withCodes as).freqAt z = s.freqAt z := rfl

/-! ## finishCodes (R105) -/

@[simp] theorem State.finishCodes_fmt (s : State) : (s.finishCodes).fmt = s.fmt := rfl
@[simp] theorem State.finishCodes_phase (s : State) : (s.finishCodes).phase = .coded := rfl
@[simp] theorem State.finishCodes_pend (s : State) : (s.finishCodes).pend = none := rfl
@[simp] theorem State.finishCodes_errCode (s : State) : (s.finishCodes).errCode = s.errCode := rfl
@[simp] theorem State.finishCodes_errCmd (s : State) : (s.finishCodes).errCmd = s.errCmd := rfl
@[simp] theorem State.finishCodes_freq (s : State) : (s.finishCodes).freq = s.freq := rfl
@[simp] theorem State.finishCodes_total (s : State) : (s.finishCodes).total = s.total := rfl
@[simp] theorem State.finishCodes_nsym (s : State) : (s.finishCodes).nsym = s.nsym := rfl
@[simp] theorem State.finishCodes_treeV (s : State) : (s.finishCodes).treeV = s.treeV := rfl
@[simp] theorem State.finishCodes_root (s : State) : (s.finishCodes).root = s.root := rfl
@[simp] theorem State.finishCodes_node (s : State) : (s.finishCodes).node = s.node := rfl
@[simp] theorem State.finishCodes_codesV (s : State) : (s.finishCodes).codesV = true := rfl
@[simp] theorem State.finishCodes_maxLen (s : State) : (s.finishCodes).maxLen = BitVec.ofNat 8 s.longestCode := rfl
@[simp] theorem State.finishCodes_wsum (s : State) : (s.finishCodes).wsum = BitVec.ofNat 64 s.weightedLength := rfl
@[simp] theorem State.finishCodes_len (s : State) : (s.finishCodes).len = s.len := rfl
@[simp] theorem State.finishCodes_code (s : State) : (s.finishCodes).code = s.code := rfl
@[simp] theorem State.finishCodes_encFmt (s : State) : (s.finishCodes).encFmt = s.encFmt := rfl
@[simp] theorem State.finishCodes_acc (s : State) : (s.finishCodes).acc = s.acc := rfl
@[simp] theorem State.finishCodes_accN (s : State) : (s.finishCodes).accN = s.accN := rfl
@[simp] theorem State.finishCodes_encN (s : State) : (s.finishCodes).encN = s.encN := rfl
@[simp] theorem State.finishCodes_outBits (s : State) : (s.finishCodes).outBits = s.outBits := rfl
@[simp] theorem State.finishCodes_fifo (s : State) : (s.finishCodes).fifo = s.fifo := rfl
@[simp] theorem State.finishCodes_res (s : State) : (s.finishCodes).res = s.res := rfl
@[simp] theorem State.finishCodes_free (s : State) : (s.finishCodes).free = s.free := rfl
@[simp] theorem State.finishCodes_prog (s : State) : (s.finishCodes).prog = s.prog := rfl
@[simp] theorem State.finishCodes_readData (s : State) : (s.finishCodes).readData = s.readData := rfl
@[simp] theorem State.finishCodes_outRead (s : State) : (s.finishCodes).outRead = s.outRead := rfl
@[simp] theorem State.finishCodes_turns (s : State) : (s.finishCodes).turns = s.turns := rfl

@[simp] theorem State.finishCodes_freqAt (s : State) (z : Symbol) : (s.finishCodes).freqAt z = s.freqAt z := rfl
@[simp] theorem State.finishCodes_lenAt (s : State) (z : Symbol) : (s.finishCodes).lenAt z = s.lenAt z := rfl
@[simp] theorem State.finishCodes_codeAt (s : State) (z : Symbol) : (s.finishCodes).codeAt z = s.codeAt z := rfl

/-! ## latchFormat (R40) -/

@[simp] theorem State.latchFormat_fmt (s : State) (f : Format) : (s.latchFormat f).fmt = s.fmt := rfl
@[simp] theorem State.latchFormat_phase (s : State) (f : Format) : (s.latchFormat f).phase = s.phase := rfl
@[simp] theorem State.latchFormat_pend (s : State) (f : Format) : (s.latchFormat f).pend = s.pend := rfl
@[simp] theorem State.latchFormat_errCode (s : State) (f : Format) : (s.latchFormat f).errCode = s.errCode := rfl
@[simp] theorem State.latchFormat_errCmd (s : State) (f : Format) : (s.latchFormat f).errCmd = s.errCmd := rfl
@[simp] theorem State.latchFormat_freq (s : State) (f : Format) : (s.latchFormat f).freq = s.freq := rfl
@[simp] theorem State.latchFormat_total (s : State) (f : Format) : (s.latchFormat f).total = s.total := rfl
@[simp] theorem State.latchFormat_nsym (s : State) (f : Format) : (s.latchFormat f).nsym = s.nsym := rfl
@[simp] theorem State.latchFormat_treeV (s : State) (f : Format) : (s.latchFormat f).treeV = s.treeV := rfl
@[simp] theorem State.latchFormat_root (s : State) (f : Format) : (s.latchFormat f).root = s.root := rfl
@[simp] theorem State.latchFormat_node (s : State) (f : Format) : (s.latchFormat f).node = s.node := rfl
@[simp] theorem State.latchFormat_codesV (s : State) (f : Format) : (s.latchFormat f).codesV = s.codesV := rfl
@[simp] theorem State.latchFormat_maxLen (s : State) (f : Format) : (s.latchFormat f).maxLen = s.maxLen := rfl
@[simp] theorem State.latchFormat_wsum (s : State) (f : Format) : (s.latchFormat f).wsum = s.wsum := rfl
@[simp] theorem State.latchFormat_len (s : State) (f : Format) : (s.latchFormat f).len = s.len := rfl
@[simp] theorem State.latchFormat_code (s : State) (f : Format) : (s.latchFormat f).code = s.code := rfl
@[simp] theorem State.latchFormat_encFmt (s : State) (f : Format) : (s.latchFormat f).encFmt = if s.phase = .coded then f else s.encFmt := rfl
@[simp] theorem State.latchFormat_acc (s : State) (f : Format) : (s.latchFormat f).acc = s.acc := rfl
@[simp] theorem State.latchFormat_accN (s : State) (f : Format) : (s.latchFormat f).accN = s.accN := rfl
@[simp] theorem State.latchFormat_encN (s : State) (f : Format) : (s.latchFormat f).encN = s.encN := rfl
@[simp] theorem State.latchFormat_outBits (s : State) (f : Format) : (s.latchFormat f).outBits = s.outBits := rfl
@[simp] theorem State.latchFormat_fifo (s : State) (f : Format) : (s.latchFormat f).fifo = s.fifo := rfl
@[simp] theorem State.latchFormat_res (s : State) (f : Format) : (s.latchFormat f).res = s.res := rfl
@[simp] theorem State.latchFormat_free (s : State) (f : Format) : (s.latchFormat f).free = s.free := rfl
@[simp] theorem State.latchFormat_prog (s : State) (f : Format) : (s.latchFormat f).prog = s.prog := rfl
@[simp] theorem State.latchFormat_readData (s : State) (f : Format) : (s.latchFormat f).readData = s.readData := rfl
@[simp] theorem State.latchFormat_outRead (s : State) (f : Format) : (s.latchFormat f).outRead = s.outRead := rfl
@[simp] theorem State.latchFormat_turns (s : State) (f : Format) : (s.latchFormat f).turns = s.turns := rfl

@[simp] theorem State.latchFormat_freqAt (s : State) (f : Format) (z : Symbol) : (s.latchFormat f).freqAt z = s.freqAt z := rfl
@[simp] theorem State.latchFormat_lenAt (s : State) (f : Format) (z : Symbol) : (s.latchFormat f).lenAt z = s.lenAt z := rfl
@[simp] theorem State.latchFormat_codeAt (s : State) (f : Format) (z : Symbol) : (s.latchFormat f).codeAt z = s.codeAt z := rfl

/-! ## finishEncode (R111) -/

@[simp] theorem State.finishEncode_fmt (s : State) (y : Symbol) : (s.finishEncode y).fmt = s.fmt := rfl
@[simp] theorem State.finishEncode_phase (s : State) (y : Symbol) : (s.finishEncode y).phase = if s.phase = .coded then .encoding else s.phase := rfl
@[simp] theorem State.finishEncode_pend (s : State) (y : Symbol) : (s.finishEncode y).pend = none := rfl
@[simp] theorem State.finishEncode_errCode (s : State) (y : Symbol) : (s.finishEncode y).errCode = s.errCode := rfl
@[simp] theorem State.finishEncode_errCmd (s : State) (y : Symbol) : (s.finishEncode y).errCmd = s.errCmd := rfl
@[simp] theorem State.finishEncode_freq (s : State) (y : Symbol) : (s.finishEncode y).freq = s.freq := rfl
@[simp] theorem State.finishEncode_total (s : State) (y : Symbol) : (s.finishEncode y).total = s.total := rfl
@[simp] theorem State.finishEncode_nsym (s : State) (y : Symbol) : (s.finishEncode y).nsym = s.nsym := rfl
@[simp] theorem State.finishEncode_treeV (s : State) (y : Symbol) : (s.finishEncode y).treeV = s.treeV := rfl
@[simp] theorem State.finishEncode_root (s : State) (y : Symbol) : (s.finishEncode y).root = s.root := rfl
@[simp] theorem State.finishEncode_node (s : State) (y : Symbol) : (s.finishEncode y).node = s.node := rfl
@[simp] theorem State.finishEncode_codesV (s : State) (y : Symbol) : (s.finishEncode y).codesV = s.codesV := rfl
@[simp] theorem State.finishEncode_maxLen (s : State) (y : Symbol) : (s.finishEncode y).maxLen = s.maxLen := rfl
@[simp] theorem State.finishEncode_wsum (s : State) (y : Symbol) : (s.finishEncode y).wsum = s.wsum := rfl
@[simp] theorem State.finishEncode_len (s : State) (y : Symbol) : (s.finishEncode y).len = s.len := rfl
@[simp] theorem State.finishEncode_code (s : State) (y : Symbol) : (s.finishEncode y).code = s.code := rfl
@[simp] theorem State.finishEncode_encFmt (s : State) (y : Symbol) : (s.finishEncode y).encFmt = s.encFmt := rfl
@[simp] theorem State.finishEncode_acc (s : State) (y : Symbol) : (s.finishEncode y).acc = s.acc := rfl
@[simp] theorem State.finishEncode_accN (s : State) (y : Symbol) : (s.finishEncode y).accN = s.accN := rfl
@[simp] theorem State.finishEncode_encN (s : State) (y : Symbol) : (s.finishEncode y).encN = s.encN + 1#32 := rfl
@[simp] theorem State.finishEncode_outBits (s : State) (y : Symbol) : (s.finishEncode y).outBits = s.outBits + (s.lenAt y).setWidth 64 := rfl
@[simp] theorem State.finishEncode_fifo (s : State) (y : Symbol) : (s.finishEncode y).fifo = s.fifo := rfl
@[simp] theorem State.finishEncode_res (s : State) (y : Symbol) : (s.finishEncode y).res = s.res := rfl
@[simp] theorem State.finishEncode_free (s : State) (y : Symbol) : (s.finishEncode y).free = s.free := rfl
@[simp] theorem State.finishEncode_prog (s : State) (y : Symbol) : (s.finishEncode y).prog = s.prog := rfl
@[simp] theorem State.finishEncode_readData (s : State) (y : Symbol) : (s.finishEncode y).readData = s.readData := rfl
@[simp] theorem State.finishEncode_outRead (s : State) (y : Symbol) : (s.finishEncode y).outRead = s.outRead := rfl
@[simp] theorem State.finishEncode_turns (s : State) (y : Symbol) : (s.finishEncode y).turns = s.turns := rfl

@[simp] theorem State.finishEncode_freqAt (s : State) (y : Symbol) (z : Symbol) : (s.finishEncode y).freqAt z = s.freqAt z := rfl
@[simp] theorem State.finishEncode_lenAt (s : State) (y : Symbol) (z : Symbol) : (s.finishEncode y).lenAt z = s.lenAt z := rfl
@[simp] theorem State.finishEncode_codeAt (s : State) (y : Symbol) (z : Symbol) : (s.finishEncode y).codeAt z = s.codeAt z := rfl

/-! ## nextStatement (R73) -/

@[simp] theorem State.nextStatement_fmt (s : State) : (s.nextStatement).fmt = s.fmt := rfl
@[simp] theorem State.nextStatement_phase (s : State) : (s.nextStatement).phase = s.phase := rfl
@[simp] theorem State.nextStatement_pend (s : State) : (s.nextStatement).pend = s.pend := rfl
@[simp] theorem State.nextStatement_errCode (s : State) : (s.nextStatement).errCode = s.errCode := rfl
@[simp] theorem State.nextStatement_errCmd (s : State) : (s.nextStatement).errCmd = s.errCmd := rfl
@[simp] theorem State.nextStatement_freq (s : State) : (s.nextStatement).freq = s.freq := rfl
@[simp] theorem State.nextStatement_total (s : State) : (s.nextStatement).total = s.total := rfl
@[simp] theorem State.nextStatement_nsym (s : State) : (s.nextStatement).nsym = s.nsym := rfl
@[simp] theorem State.nextStatement_treeV (s : State) : (s.nextStatement).treeV = s.treeV := rfl
@[simp] theorem State.nextStatement_root (s : State) : (s.nextStatement).root = s.root := rfl
@[simp] theorem State.nextStatement_node (s : State) : (s.nextStatement).node = s.node := rfl
@[simp] theorem State.nextStatement_codesV (s : State) : (s.nextStatement).codesV = s.codesV := rfl
@[simp] theorem State.nextStatement_maxLen (s : State) : (s.nextStatement).maxLen = s.maxLen := rfl
@[simp] theorem State.nextStatement_wsum (s : State) : (s.nextStatement).wsum = s.wsum := rfl
@[simp] theorem State.nextStatement_len (s : State) : (s.nextStatement).len = s.len := rfl
@[simp] theorem State.nextStatement_code (s : State) : (s.nextStatement).code = s.code := rfl
@[simp] theorem State.nextStatement_encFmt (s : State) : (s.nextStatement).encFmt = s.encFmt := rfl
@[simp] theorem State.nextStatement_acc (s : State) : (s.nextStatement).acc = s.acc := rfl
@[simp] theorem State.nextStatement_accN (s : State) : (s.nextStatement).accN = s.accN := rfl
@[simp] theorem State.nextStatement_encN (s : State) : (s.nextStatement).encN = s.encN := rfl
@[simp] theorem State.nextStatement_outBits (s : State) : (s.nextStatement).outBits = s.outBits := rfl
@[simp] theorem State.nextStatement_fifo (s : State) : (s.nextStatement).fifo = s.fifo := rfl
@[simp] theorem State.nextStatement_res (s : State) : (s.nextStatement).res = s.res := rfl
@[simp] theorem State.nextStatement_free (s : State) : (s.nextStatement).free = s.free := rfl
@[simp] theorem State.nextStatement_prog (s : State) : (s.nextStatement).prog = s.prog.tail := rfl
@[simp] theorem State.nextStatement_readData (s : State) : (s.nextStatement).readData = s.readData := rfl
@[simp] theorem State.nextStatement_outRead (s : State) : (s.nextStatement).outRead = s.outRead := rfl
@[simp] theorem State.nextStatement_turns (s : State) : (s.nextStatement).turns = s.turns := rfl

@[simp] theorem State.nextStatement_freqAt (s : State) (z : Symbol) : (s.nextStatement).freqAt z = s.freqAt z := rfl
@[simp] theorem State.nextStatement_lenAt (s : State) (z : Symbol) : (s.nextStatement).lenAt z = s.lenAt z := rfl
@[simp] theorem State.nextStatement_codeAt (s : State) (z : Symbol) : (s.nextStatement).codeAt z = s.codeAt z := rfl

/-! ## endTurn (R56) -/

@[simp] theorem State.endTurn_fmt (s : State) : (s.endTurn).fmt = s.fmt := rfl
@[simp] theorem State.endTurn_phase (s : State) : (s.endTurn).phase = s.phase := rfl
@[simp] theorem State.endTurn_pend (s : State) : (s.endTurn).pend = s.pend := rfl
@[simp] theorem State.endTurn_errCode (s : State) : (s.endTurn).errCode = s.errCode := rfl
@[simp] theorem State.endTurn_errCmd (s : State) : (s.endTurn).errCmd = s.errCmd := rfl
@[simp] theorem State.endTurn_freq (s : State) : (s.endTurn).freq = s.freq := rfl
@[simp] theorem State.endTurn_total (s : State) : (s.endTurn).total = s.total := rfl
@[simp] theorem State.endTurn_nsym (s : State) : (s.endTurn).nsym = s.nsym := rfl
@[simp] theorem State.endTurn_treeV (s : State) : (s.endTurn).treeV = s.treeV := rfl
@[simp] theorem State.endTurn_root (s : State) : (s.endTurn).root = s.root := rfl
@[simp] theorem State.endTurn_node (s : State) : (s.endTurn).node = s.node := rfl
@[simp] theorem State.endTurn_codesV (s : State) : (s.endTurn).codesV = s.codesV := rfl
@[simp] theorem State.endTurn_maxLen (s : State) : (s.endTurn).maxLen = s.maxLen := rfl
@[simp] theorem State.endTurn_wsum (s : State) : (s.endTurn).wsum = s.wsum := rfl
@[simp] theorem State.endTurn_len (s : State) : (s.endTurn).len = s.len := rfl
@[simp] theorem State.endTurn_code (s : State) : (s.endTurn).code = s.code := rfl
@[simp] theorem State.endTurn_encFmt (s : State) : (s.endTurn).encFmt = s.encFmt := rfl
@[simp] theorem State.endTurn_acc (s : State) : (s.endTurn).acc = s.acc := rfl
@[simp] theorem State.endTurn_accN (s : State) : (s.endTurn).accN = s.accN := rfl
@[simp] theorem State.endTurn_encN (s : State) : (s.endTurn).encN = s.encN := rfl
@[simp] theorem State.endTurn_outBits (s : State) : (s.endTurn).outBits = s.outBits := rfl
@[simp] theorem State.endTurn_fifo (s : State) : (s.endTurn).fifo = s.fifo := rfl
@[simp] theorem State.endTurn_res (s : State) : (s.endTurn).res = s.res := rfl
@[simp] theorem State.endTurn_free (s : State) : (s.endTurn).free = s.free := rfl
@[simp] theorem State.endTurn_prog (s : State) : (s.endTurn).prog = s.prog := rfl
@[simp] theorem State.endTurn_readData (s : State) : (s.endTurn).readData = s.readData := rfl
@[simp] theorem State.endTurn_outRead (s : State) : (s.endTurn).outRead = s.outRead := rfl
@[simp] theorem State.endTurn_turns (s : State) : (s.endTurn).turns = s.turns.tail := rfl

@[simp] theorem State.endTurn_freqAt (s : State) (z : Symbol) : (s.endTurn).freqAt z = s.freqAt z := rfl
@[simp] theorem State.endTurn_lenAt (s : State) (z : Symbol) : (s.endTurn).lenAt z = s.lenAt z := rfl
@[simp] theorem State.endTurn_codeAt (s : State) (z : Symbol) : (s.endTurn).codeAt z = s.codeAt z := rfl

end Sys2Proof.Machine
end

