-- ==== Sys2Proof/Laws/Frames.lean ====
section
/-!
SUPPORT. Frames of the operations that branch: what emitting bits, draining the accumulator, popping the FIFO, reading
a register, counting an argument and completing a command leave unchanged, one lemma per field.
-/

namespace Sys2Proof.Machine

/-! ## Emission (R116): only the FIFO and the accumulator change -/

@[simp] theorem State.emitBit_fmt (s : State) (b : Bool) : (s.emitBit b).fmt = s.fmt := by
  unfold State.emitBit State.emitPacked State.emitTextual State.push; split <;> [split; skip] <;> rfl
@[simp] theorem State.emitBit_phase (s : State) (b : Bool) : (s.emitBit b).phase = s.phase := by
  unfold State.emitBit State.emitPacked State.emitTextual State.push; split <;> [split; skip] <;> rfl
@[simp] theorem State.emitBit_pend (s : State) (b : Bool) : (s.emitBit b).pend = s.pend := by
  unfold State.emitBit State.emitPacked State.emitTextual State.push; split <;> [split; skip] <;> rfl
@[simp] theorem State.emitBit_errCode (s : State) (b : Bool) : (s.emitBit b).errCode = s.errCode := by
  unfold State.emitBit State.emitPacked State.emitTextual State.push; split <;> [split; skip] <;> rfl
@[simp] theorem State.emitBit_errCmd (s : State) (b : Bool) : (s.emitBit b).errCmd = s.errCmd := by
  unfold State.emitBit State.emitPacked State.emitTextual State.push; split <;> [split; skip] <;> rfl
@[simp] theorem State.emitBit_freq (s : State) (b : Bool) : (s.emitBit b).freq = s.freq := by
  unfold State.emitBit State.emitPacked State.emitTextual State.push; split <;> [split; skip] <;> rfl
@[simp] theorem State.emitBit_total (s : State) (b : Bool) : (s.emitBit b).total = s.total := by
  unfold State.emitBit State.emitPacked State.emitTextual State.push; split <;> [split; skip] <;> rfl
@[simp] theorem State.emitBit_nsym (s : State) (b : Bool) : (s.emitBit b).nsym = s.nsym := by
  unfold State.emitBit State.emitPacked State.emitTextual State.push; split <;> [split; skip] <;> rfl
@[simp] theorem State.emitBit_treeV (s : State) (b : Bool) : (s.emitBit b).treeV = s.treeV := by
  unfold State.emitBit State.emitPacked State.emitTextual State.push; split <;> [split; skip] <;> rfl
@[simp] theorem State.emitBit_root (s : State) (b : Bool) : (s.emitBit b).root = s.root := by
  unfold State.emitBit State.emitPacked State.emitTextual State.push; split <;> [split; skip] <;> rfl
@[simp] theorem State.emitBit_node (s : State) (b : Bool) : (s.emitBit b).node = s.node := by
  unfold State.emitBit State.emitPacked State.emitTextual State.push; split <;> [split; skip] <;> rfl
@[simp] theorem State.emitBit_codesV (s : State) (b : Bool) : (s.emitBit b).codesV = s.codesV := by
  unfold State.emitBit State.emitPacked State.emitTextual State.push; split <;> [split; skip] <;> rfl
@[simp] theorem State.emitBit_maxLen (s : State) (b : Bool) : (s.emitBit b).maxLen = s.maxLen := by
  unfold State.emitBit State.emitPacked State.emitTextual State.push; split <;> [split; skip] <;> rfl
@[simp] theorem State.emitBit_wsum (s : State) (b : Bool) : (s.emitBit b).wsum = s.wsum := by
  unfold State.emitBit State.emitPacked State.emitTextual State.push; split <;> [split; skip] <;> rfl
@[simp] theorem State.emitBit_len (s : State) (b : Bool) : (s.emitBit b).len = s.len := by
  unfold State.emitBit State.emitPacked State.emitTextual State.push; split <;> [split; skip] <;> rfl
@[simp] theorem State.emitBit_code (s : State) (b : Bool) : (s.emitBit b).code = s.code := by
  unfold State.emitBit State.emitPacked State.emitTextual State.push; split <;> [split; skip] <;> rfl
@[simp] theorem State.emitBit_encFmt (s : State) (b : Bool) : (s.emitBit b).encFmt = s.encFmt := by
  unfold State.emitBit State.emitPacked State.emitTextual State.push; split <;> [split; skip] <;> rfl
@[simp] theorem State.emitBit_encN (s : State) (b : Bool) : (s.emitBit b).encN = s.encN := by
  unfold State.emitBit State.emitPacked State.emitTextual State.push; split <;> [split; skip] <;> rfl
@[simp] theorem State.emitBit_outBits (s : State) (b : Bool) : (s.emitBit b).outBits = s.outBits := by
  unfold State.emitBit State.emitPacked State.emitTextual State.push; split <;> [split; skip] <;> rfl
@[simp] theorem State.emitBit_res (s : State) (b : Bool) : (s.emitBit b).res = s.res := by
  unfold State.emitBit State.emitPacked State.emitTextual State.push; split <;> [split; skip] <;> rfl
@[simp] theorem State.emitBit_free (s : State) (b : Bool) : (s.emitBit b).free = s.free := by
  unfold State.emitBit State.emitPacked State.emitTextual State.push; split <;> [split; skip] <;> rfl
@[simp] theorem State.emitBit_prog (s : State) (b : Bool) : (s.emitBit b).prog = s.prog := by
  unfold State.emitBit State.emitPacked State.emitTextual State.push; split <;> [split; skip] <;> rfl
@[simp] theorem State.emitBit_readData (s : State) (b : Bool) : (s.emitBit b).readData = s.readData := by
  unfold State.emitBit State.emitPacked State.emitTextual State.push; split <;> [split; skip] <;> rfl
@[simp] theorem State.emitBit_outRead (s : State) (b : Bool) : (s.emitBit b).outRead = s.outRead := by
  unfold State.emitBit State.emitPacked State.emitTextual State.push; split <;> [split; skip] <;> rfl
@[simp] theorem State.emitBit_turns (s : State) (b : Bool) : (s.emitBit b).turns = s.turns := by
  unfold State.emitBit State.emitPacked State.emitTextual State.push; split <;> [split; skip] <;> rfl
@[simp] theorem State.emitBit_freqAt (s : State) (b : Bool) (z : Symbol) : (s.emitBit b).freqAt z = s.freqAt z := by
  simp [State.freqAt]
@[simp] theorem State.emitBit_lenAt (s : State) (b : Bool) (z : Symbol) : (s.emitBit b).lenAt z = s.lenAt z := by
  simp [State.lenAt]
@[simp] theorem State.emitBit_codeAt (s : State) (b : Bool) (z : Symbol) : (s.emitBit b).codeAt z = s.codeAt z := by
  simp [State.codeAt]

/-- Emitting no bits does nothing. -/
@[simp] theorem State.emitBits_nil (s : State) : s.emitBits [] = s := rfl

/-- Emitting bits one after the other (R111). -/
theorem State.emitBits_cons (s : State) (b : Bool) (bs : List Bool) :
    s.emitBits (b :: bs) = (s.emitBit b).emitBits bs := rfl

@[simp] theorem State.emitBits_fmt (s : State) (bs : List Bool) : (s.emitBits bs).fmt = s.fmt := by
  induction bs generalizing s with
  | nil => rfl
  | cons b bs ih => rw [State.emitBits_cons, ih, State.emitBit_fmt]
@[simp] theorem State.emitBits_phase (s : State) (bs : List Bool) : (s.emitBits bs).phase = s.phase := by
  induction bs generalizing s with
  | nil => rfl
  | cons b bs ih => rw [State.emitBits_cons, ih, State.emitBit_phase]
@[simp] theorem State.emitBits_pend (s : State) (bs : List Bool) : (s.emitBits bs).pend = s.pend := by
  induction bs generalizing s with
  | nil => rfl
  | cons b bs ih => rw [State.emitBits_cons, ih, State.emitBit_pend]
@[simp] theorem State.emitBits_errCode (s : State) (bs : List Bool) : (s.emitBits bs).errCode = s.errCode := by
  induction bs generalizing s with
  | nil => rfl
  | cons b bs ih => rw [State.emitBits_cons, ih, State.emitBit_errCode]
@[simp] theorem State.emitBits_errCmd (s : State) (bs : List Bool) : (s.emitBits bs).errCmd = s.errCmd := by
  induction bs generalizing s with
  | nil => rfl
  | cons b bs ih => rw [State.emitBits_cons, ih, State.emitBit_errCmd]
@[simp] theorem State.emitBits_freq (s : State) (bs : List Bool) : (s.emitBits bs).freq = s.freq := by
  induction bs generalizing s with
  | nil => rfl
  | cons b bs ih => rw [State.emitBits_cons, ih, State.emitBit_freq]
@[simp] theorem State.emitBits_total (s : State) (bs : List Bool) : (s.emitBits bs).total = s.total := by
  induction bs generalizing s with
  | nil => rfl
  | cons b bs ih => rw [State.emitBits_cons, ih, State.emitBit_total]
@[simp] theorem State.emitBits_nsym (s : State) (bs : List Bool) : (s.emitBits bs).nsym = s.nsym := by
  induction bs generalizing s with
  | nil => rfl
  | cons b bs ih => rw [State.emitBits_cons, ih, State.emitBit_nsym]
@[simp] theorem State.emitBits_treeV (s : State) (bs : List Bool) : (s.emitBits bs).treeV = s.treeV := by
  induction bs generalizing s with
  | nil => rfl
  | cons b bs ih => rw [State.emitBits_cons, ih, State.emitBit_treeV]
@[simp] theorem State.emitBits_root (s : State) (bs : List Bool) : (s.emitBits bs).root = s.root := by
  induction bs generalizing s with
  | nil => rfl
  | cons b bs ih => rw [State.emitBits_cons, ih, State.emitBit_root]
@[simp] theorem State.emitBits_node (s : State) (bs : List Bool) : (s.emitBits bs).node = s.node := by
  induction bs generalizing s with
  | nil => rfl
  | cons b bs ih => rw [State.emitBits_cons, ih, State.emitBit_node]
@[simp] theorem State.emitBits_codesV (s : State) (bs : List Bool) : (s.emitBits bs).codesV = s.codesV := by
  induction bs generalizing s with
  | nil => rfl
  | cons b bs ih => rw [State.emitBits_cons, ih, State.emitBit_codesV]
@[simp] theorem State.emitBits_maxLen (s : State) (bs : List Bool) : (s.emitBits bs).maxLen = s.maxLen := by
  induction bs generalizing s with
  | nil => rfl
  | cons b bs ih => rw [State.emitBits_cons, ih, State.emitBit_maxLen]
@[simp] theorem State.emitBits_wsum (s : State) (bs : List Bool) : (s.emitBits bs).wsum = s.wsum := by
  induction bs generalizing s with
  | nil => rfl
  | cons b bs ih => rw [State.emitBits_cons, ih, State.emitBit_wsum]
@[simp] theorem State.emitBits_len (s : State) (bs : List Bool) : (s.emitBits bs).len = s.len := by
  induction bs generalizing s with
  | nil => rfl
  | cons b bs ih => rw [State.emitBits_cons, ih, State.emitBit_len]
@[simp] theorem State.emitBits_code (s : State) (bs : List Bool) : (s.emitBits bs).code = s.code := by
  induction bs generalizing s with
  | nil => rfl
  | cons b bs ih => rw [State.emitBits_cons, ih, State.emitBit_code]
@[simp] theorem State.emitBits_encFmt (s : State) (bs : List Bool) : (s.emitBits bs).encFmt = s.encFmt := by
  induction bs generalizing s with
  | nil => rfl
  | cons b bs ih => rw [State.emitBits_cons, ih, State.emitBit_encFmt]
@[simp] theorem State.emitBits_encN (s : State) (bs : List Bool) : (s.emitBits bs).encN = s.encN := by
  induction bs generalizing s with
  | nil => rfl
  | cons b bs ih => rw [State.emitBits_cons, ih, State.emitBit_encN]
@[simp] theorem State.emitBits_outBits (s : State) (bs : List Bool) : (s.emitBits bs).outBits = s.outBits := by
  induction bs generalizing s with
  | nil => rfl
  | cons b bs ih => rw [State.emitBits_cons, ih, State.emitBit_outBits]
@[simp] theorem State.emitBits_res (s : State) (bs : List Bool) : (s.emitBits bs).res = s.res := by
  induction bs generalizing s with
  | nil => rfl
  | cons b bs ih => rw [State.emitBits_cons, ih, State.emitBit_res]
@[simp] theorem State.emitBits_free (s : State) (bs : List Bool) : (s.emitBits bs).free = s.free := by
  induction bs generalizing s with
  | nil => rfl
  | cons b bs ih => rw [State.emitBits_cons, ih, State.emitBit_free]
@[simp] theorem State.emitBits_prog (s : State) (bs : List Bool) : (s.emitBits bs).prog = s.prog := by
  induction bs generalizing s with
  | nil => rfl
  | cons b bs ih => rw [State.emitBits_cons, ih, State.emitBit_prog]
@[simp] theorem State.emitBits_readData (s : State) (bs : List Bool) : (s.emitBits bs).readData = s.readData := by
  induction bs generalizing s with
  | nil => rfl
  | cons b bs ih => rw [State.emitBits_cons, ih, State.emitBit_readData]
@[simp] theorem State.emitBits_outRead (s : State) (bs : List Bool) : (s.emitBits bs).outRead = s.outRead := by
  induction bs generalizing s with
  | nil => rfl
  | cons b bs ih => rw [State.emitBits_cons, ih, State.emitBit_outRead]
@[simp] theorem State.emitBits_turns (s : State) (bs : List Bool) : (s.emitBits bs).turns = s.turns := by
  induction bs generalizing s with
  | nil => rfl
  | cons b bs ih => rw [State.emitBits_cons, ih, State.emitBit_turns]
@[simp] theorem State.emitBits_freqAt (s : State) (bs : List Bool) (z : Symbol) : (s.emitBits bs).freqAt z = s.freqAt z := by
  simp [State.freqAt]
@[simp] theorem State.emitBits_lenAt (s : State) (bs : List Bool) (z : Symbol) : (s.emitBits bs).lenAt z = s.lenAt z := by
  simp [State.lenAt]
@[simp] theorem State.emitBits_codeAt (s : State) (bs : List Bool) (z : Symbol) : (s.emitBits bs).codeAt z = s.codeAt z := by
  simp [State.codeAt]

/-! ## Draining the accumulator (R114) -/

@[simp] theorem State.drainAcc_fmt (s : State) : (s.drainAcc).fmt = s.fmt := by
  unfold State.drainAcc; split <;> rfl
@[simp] theorem State.drainAcc_phase (s : State) : (s.drainAcc).phase = s.phase := by
  unfold State.drainAcc; split <;> rfl
@[simp] theorem State.drainAcc_pend (s : State) : (s.drainAcc).pend = s.pend := by
  unfold State.drainAcc; split <;> rfl
@[simp] theorem State.drainAcc_errCode (s : State) : (s.drainAcc).errCode = s.errCode := by
  unfold State.drainAcc; split <;> rfl
@[simp] theorem State.drainAcc_errCmd (s : State) : (s.drainAcc).errCmd = s.errCmd := by
  unfold State.drainAcc; split <;> rfl
@[simp] theorem State.drainAcc_freq (s : State) : (s.drainAcc).freq = s.freq := by
  unfold State.drainAcc; split <;> rfl
@[simp] theorem State.drainAcc_total (s : State) : (s.drainAcc).total = s.total := by
  unfold State.drainAcc; split <;> rfl
@[simp] theorem State.drainAcc_nsym (s : State) : (s.drainAcc).nsym = s.nsym := by
  unfold State.drainAcc; split <;> rfl
@[simp] theorem State.drainAcc_treeV (s : State) : (s.drainAcc).treeV = s.treeV := by
  unfold State.drainAcc; split <;> rfl
@[simp] theorem State.drainAcc_root (s : State) : (s.drainAcc).root = s.root := by
  unfold State.drainAcc; split <;> rfl
@[simp] theorem State.drainAcc_node (s : State) : (s.drainAcc).node = s.node := by
  unfold State.drainAcc; split <;> rfl
@[simp] theorem State.drainAcc_codesV (s : State) : (s.drainAcc).codesV = s.codesV := by
  unfold State.drainAcc; split <;> rfl
@[simp] theorem State.drainAcc_maxLen (s : State) : (s.drainAcc).maxLen = s.maxLen := by
  unfold State.drainAcc; split <;> rfl
@[simp] theorem State.drainAcc_wsum (s : State) : (s.drainAcc).wsum = s.wsum := by
  unfold State.drainAcc; split <;> rfl
@[simp] theorem State.drainAcc_len (s : State) : (s.drainAcc).len = s.len := by
  unfold State.drainAcc; split <;> rfl
@[simp] theorem State.drainAcc_code (s : State) : (s.drainAcc).code = s.code := by
  unfold State.drainAcc; split <;> rfl
@[simp] theorem State.drainAcc_encFmt (s : State) : (s.drainAcc).encFmt = s.encFmt := by
  unfold State.drainAcc; split <;> rfl
@[simp] theorem State.drainAcc_encN (s : State) : (s.drainAcc).encN = s.encN := by
  unfold State.drainAcc; split <;> rfl
@[simp] theorem State.drainAcc_outBits (s : State) : (s.drainAcc).outBits = s.outBits := by
  unfold State.drainAcc; split <;> rfl
@[simp] theorem State.drainAcc_res (s : State) : (s.drainAcc).res = s.res := by
  unfold State.drainAcc; split <;> rfl
@[simp] theorem State.drainAcc_free (s : State) : (s.drainAcc).free = s.free := by
  unfold State.drainAcc; split <;> rfl
@[simp] theorem State.drainAcc_prog (s : State) : (s.drainAcc).prog = s.prog := by
  unfold State.drainAcc; split <;> rfl
@[simp] theorem State.drainAcc_readData (s : State) : (s.drainAcc).readData = s.readData := by
  unfold State.drainAcc; split <;> rfl
@[simp] theorem State.drainAcc_outRead (s : State) : (s.drainAcc).outRead = s.outRead := by
  unfold State.drainAcc; split <;> rfl
@[simp] theorem State.drainAcc_turns (s : State) : (s.drainAcc).turns = s.turns := by
  unfold State.drainAcc; split <;> rfl
@[simp] theorem State.drainAcc_freqAt (s : State) (z : Symbol) : (s.drainAcc).freqAt z = s.freqAt z := by
  simp [State.freqAt]
@[simp] theorem State.drainAcc_lenAt (s : State) (z : Symbol) : (s.drainAcc).lenAt z = s.lenAt z := by
  simp [State.lenAt]
@[simp] theorem State.drainAcc_codeAt (s : State) (z : Symbol) : (s.drainAcc).codeAt z = s.codeAt z := by
  simp [State.codeAt]

/-! ## Popping the FIFO (R38): only the FIFO and the host's bytes change -/

@[simp] theorem State.popOutput_fmt (s : State) : (s.popOutput).fmt = s.fmt := by
  unfold State.popOutput; split <;> rfl
@[simp] theorem State.popOutput_phase (s : State) : (s.popOutput).phase = s.phase := by
  unfold State.popOutput; split <;> rfl
@[simp] theorem State.popOutput_pend (s : State) : (s.popOutput).pend = s.pend := by
  unfold State.popOutput; split <;> rfl
@[simp] theorem State.popOutput_errCode (s : State) : (s.popOutput).errCode = s.errCode := by
  unfold State.popOutput; split <;> rfl
@[simp] theorem State.popOutput_errCmd (s : State) : (s.popOutput).errCmd = s.errCmd := by
  unfold State.popOutput; split <;> rfl
@[simp] theorem State.popOutput_freq (s : State) : (s.popOutput).freq = s.freq := by
  unfold State.popOutput; split <;> rfl
@[simp] theorem State.popOutput_total (s : State) : (s.popOutput).total = s.total := by
  unfold State.popOutput; split <;> rfl
@[simp] theorem State.popOutput_nsym (s : State) : (s.popOutput).nsym = s.nsym := by
  unfold State.popOutput; split <;> rfl
@[simp] theorem State.popOutput_treeV (s : State) : (s.popOutput).treeV = s.treeV := by
  unfold State.popOutput; split <;> rfl
@[simp] theorem State.popOutput_root (s : State) : (s.popOutput).root = s.root := by
  unfold State.popOutput; split <;> rfl
@[simp] theorem State.popOutput_node (s : State) : (s.popOutput).node = s.node := by
  unfold State.popOutput; split <;> rfl
@[simp] theorem State.popOutput_codesV (s : State) : (s.popOutput).codesV = s.codesV := by
  unfold State.popOutput; split <;> rfl
@[simp] theorem State.popOutput_maxLen (s : State) : (s.popOutput).maxLen = s.maxLen := by
  unfold State.popOutput; split <;> rfl
@[simp] theorem State.popOutput_wsum (s : State) : (s.popOutput).wsum = s.wsum := by
  unfold State.popOutput; split <;> rfl
@[simp] theorem State.popOutput_len (s : State) : (s.popOutput).len = s.len := by
  unfold State.popOutput; split <;> rfl
@[simp] theorem State.popOutput_code (s : State) : (s.popOutput).code = s.code := by
  unfold State.popOutput; split <;> rfl
@[simp] theorem State.popOutput_encFmt (s : State) : (s.popOutput).encFmt = s.encFmt := by
  unfold State.popOutput; split <;> rfl
@[simp] theorem State.popOutput_acc (s : State) : (s.popOutput).acc = s.acc := by
  unfold State.popOutput; split <;> rfl
@[simp] theorem State.popOutput_accN (s : State) : (s.popOutput).accN = s.accN := by
  unfold State.popOutput; split <;> rfl
@[simp] theorem State.popOutput_encN (s : State) : (s.popOutput).encN = s.encN := by
  unfold State.popOutput; split <;> rfl
@[simp] theorem State.popOutput_outBits (s : State) : (s.popOutput).outBits = s.outBits := by
  unfold State.popOutput; split <;> rfl
@[simp] theorem State.popOutput_res (s : State) : (s.popOutput).res = s.res := by
  unfold State.popOutput; split <;> rfl
@[simp] theorem State.popOutput_free (s : State) : (s.popOutput).free = s.free := by
  unfold State.popOutput; split <;> rfl
@[simp] theorem State.popOutput_prog (s : State) : (s.popOutput).prog = s.prog := by
  unfold State.popOutput; split <;> rfl
@[simp] theorem State.popOutput_readData (s : State) : (s.popOutput).readData = s.readData := by
  unfold State.popOutput; split <;> rfl
@[simp] theorem State.popOutput_turns (s : State) : (s.popOutput).turns = s.turns := by
  unfold State.popOutput; split <;> rfl
@[simp] theorem State.popOutput_freqAt (s : State) (z : Symbol) : (s.popOutput).freqAt z = s.freqAt z := by
  simp [State.freqAt]
@[simp] theorem State.popOutput_lenAt (s : State) (z : Symbol) : (s.popOutput).lenAt z = s.lenAt z := by
  simp [State.lenAt]
@[simp] theorem State.popOutput_codeAt (s : State) (z : Symbol) : (s.popOutput).codeAt z = s.codeAt z := by
  simp [State.codeAt]

/-! ## A host read (R75): only a pop, and the value returned -/

@[simp] theorem State.hostRead_fmt (s : State) (i : RegIndex) : (s.hostRead i).fmt = s.fmt := by
  unfold State.hostRead; dsimp only; split <;> simp
@[simp] theorem State.hostRead_phase (s : State) (i : RegIndex) : (s.hostRead i).phase = s.phase := by
  unfold State.hostRead; dsimp only; split <;> simp
@[simp] theorem State.hostRead_pend (s : State) (i : RegIndex) : (s.hostRead i).pend = s.pend := by
  unfold State.hostRead; dsimp only; split <;> simp
@[simp] theorem State.hostRead_errCode (s : State) (i : RegIndex) : (s.hostRead i).errCode = s.errCode := by
  unfold State.hostRead; dsimp only; split <;> simp
@[simp] theorem State.hostRead_errCmd (s : State) (i : RegIndex) : (s.hostRead i).errCmd = s.errCmd := by
  unfold State.hostRead; dsimp only; split <;> simp
@[simp] theorem State.hostRead_freq (s : State) (i : RegIndex) : (s.hostRead i).freq = s.freq := by
  unfold State.hostRead; dsimp only; split <;> simp
@[simp] theorem State.hostRead_total (s : State) (i : RegIndex) : (s.hostRead i).total = s.total := by
  unfold State.hostRead; dsimp only; split <;> simp
@[simp] theorem State.hostRead_nsym (s : State) (i : RegIndex) : (s.hostRead i).nsym = s.nsym := by
  unfold State.hostRead; dsimp only; split <;> simp
@[simp] theorem State.hostRead_treeV (s : State) (i : RegIndex) : (s.hostRead i).treeV = s.treeV := by
  unfold State.hostRead; dsimp only; split <;> simp
@[simp] theorem State.hostRead_root (s : State) (i : RegIndex) : (s.hostRead i).root = s.root := by
  unfold State.hostRead; dsimp only; split <;> simp
@[simp] theorem State.hostRead_node (s : State) (i : RegIndex) : (s.hostRead i).node = s.node := by
  unfold State.hostRead; dsimp only; split <;> simp
@[simp] theorem State.hostRead_codesV (s : State) (i : RegIndex) : (s.hostRead i).codesV = s.codesV := by
  unfold State.hostRead; dsimp only; split <;> simp
@[simp] theorem State.hostRead_maxLen (s : State) (i : RegIndex) : (s.hostRead i).maxLen = s.maxLen := by
  unfold State.hostRead; dsimp only; split <;> simp
@[simp] theorem State.hostRead_wsum (s : State) (i : RegIndex) : (s.hostRead i).wsum = s.wsum := by
  unfold State.hostRead; dsimp only; split <;> simp
@[simp] theorem State.hostRead_len (s : State) (i : RegIndex) : (s.hostRead i).len = s.len := by
  unfold State.hostRead; dsimp only; split <;> simp
@[simp] theorem State.hostRead_code (s : State) (i : RegIndex) : (s.hostRead i).code = s.code := by
  unfold State.hostRead; dsimp only; split <;> simp
@[simp] theorem State.hostRead_encFmt (s : State) (i : RegIndex) : (s.hostRead i).encFmt = s.encFmt := by
  unfold State.hostRead; dsimp only; split <;> simp
@[simp] theorem State.hostRead_acc (s : State) (i : RegIndex) : (s.hostRead i).acc = s.acc := by
  unfold State.hostRead; dsimp only; split <;> simp
@[simp] theorem State.hostRead_accN (s : State) (i : RegIndex) : (s.hostRead i).accN = s.accN := by
  unfold State.hostRead; dsimp only; split <;> simp
@[simp] theorem State.hostRead_encN (s : State) (i : RegIndex) : (s.hostRead i).encN = s.encN := by
  unfold State.hostRead; dsimp only; split <;> simp
@[simp] theorem State.hostRead_outBits (s : State) (i : RegIndex) : (s.hostRead i).outBits = s.outBits := by
  unfold State.hostRead; dsimp only; split <;> simp
@[simp] theorem State.hostRead_res (s : State) (i : RegIndex) : (s.hostRead i).res = s.res := by
  unfold State.hostRead; dsimp only; split <;> simp
@[simp] theorem State.hostRead_free (s : State) (i : RegIndex) : (s.hostRead i).free = s.free := by
  unfold State.hostRead; dsimp only; split <;> simp
@[simp] theorem State.hostRead_prog (s : State) (i : RegIndex) : (s.hostRead i).prog = s.prog := by
  unfold State.hostRead; dsimp only; split <;> simp
@[simp] theorem State.hostRead_turns (s : State) (i : RegIndex) : (s.hostRead i).turns = s.turns := by
  unfold State.hostRead; dsimp only; split <;> simp
@[simp] theorem State.hostRead_freqAt (s : State) (i : RegIndex) (z : Symbol) : (s.hostRead i).freqAt z = s.freqAt z := by
  simp [State.freqAt]
@[simp] theorem State.hostRead_lenAt (s : State) (i : RegIndex) (z : Symbol) : (s.hostRead i).lenAt z = s.lenAt z := by
  simp [State.lenAt]
@[simp] theorem State.hostRead_codeAt (s : State) (i : RegIndex) (z : Symbol) : (s.hostRead i).codeAt z = s.codeAt z := by
  simp [State.codeAt]

/-! ## COUNT's effect (R92): only FREQ, TOTAL and NSYM -/

@[simp] theorem State.countArg_fmt (s : State) (a : Arg) : (s.countArg a).fmt = s.fmt := by
  unfold State.countArg; split <;> simp
@[simp] theorem State.countArg_phase (s : State) (a : Arg) : (s.countArg a).phase = s.phase := by
  unfold State.countArg; split <;> simp
@[simp] theorem State.countArg_pend (s : State) (a : Arg) : (s.countArg a).pend = s.pend := by
  unfold State.countArg; split <;> simp
@[simp] theorem State.countArg_errCode (s : State) (a : Arg) : (s.countArg a).errCode = s.errCode := by
  unfold State.countArg; split <;> simp
@[simp] theorem State.countArg_errCmd (s : State) (a : Arg) : (s.countArg a).errCmd = s.errCmd := by
  unfold State.countArg; split <;> simp
@[simp] theorem State.countArg_treeV (s : State) (a : Arg) : (s.countArg a).treeV = s.treeV := by
  unfold State.countArg; split <;> simp
@[simp] theorem State.countArg_root (s : State) (a : Arg) : (s.countArg a).root = s.root := by
  unfold State.countArg; split <;> simp
@[simp] theorem State.countArg_node (s : State) (a : Arg) : (s.countArg a).node = s.node := by
  unfold State.countArg; split <;> simp
@[simp] theorem State.countArg_codesV (s : State) (a : Arg) : (s.countArg a).codesV = s.codesV := by
  unfold State.countArg; split <;> simp
@[simp] theorem State.countArg_maxLen (s : State) (a : Arg) : (s.countArg a).maxLen = s.maxLen := by
  unfold State.countArg; split <;> simp
@[simp] theorem State.countArg_wsum (s : State) (a : Arg) : (s.countArg a).wsum = s.wsum := by
  unfold State.countArg; split <;> simp
@[simp] theorem State.countArg_len (s : State) (a : Arg) : (s.countArg a).len = s.len := by
  unfold State.countArg; split <;> simp
@[simp] theorem State.countArg_code (s : State) (a : Arg) : (s.countArg a).code = s.code := by
  unfold State.countArg; split <;> simp
@[simp] theorem State.countArg_encFmt (s : State) (a : Arg) : (s.countArg a).encFmt = s.encFmt := by
  unfold State.countArg; split <;> simp
@[simp] theorem State.countArg_acc (s : State) (a : Arg) : (s.countArg a).acc = s.acc := by
  unfold State.countArg; split <;> simp
@[simp] theorem State.countArg_accN (s : State) (a : Arg) : (s.countArg a).accN = s.accN := by
  unfold State.countArg; split <;> simp
@[simp] theorem State.countArg_encN (s : State) (a : Arg) : (s.countArg a).encN = s.encN := by
  unfold State.countArg; split <;> simp
@[simp] theorem State.countArg_outBits (s : State) (a : Arg) : (s.countArg a).outBits = s.outBits := by
  unfold State.countArg; split <;> simp
@[simp] theorem State.countArg_fifo (s : State) (a : Arg) : (s.countArg a).fifo = s.fifo := by
  unfold State.countArg; split <;> simp
@[simp] theorem State.countArg_res (s : State) (a : Arg) : (s.countArg a).res = s.res := by
  unfold State.countArg; split <;> simp
@[simp] theorem State.countArg_free (s : State) (a : Arg) : (s.countArg a).free = s.free := by
  unfold State.countArg; split <;> simp
@[simp] theorem State.countArg_prog (s : State) (a : Arg) : (s.countArg a).prog = s.prog := by
  unfold State.countArg; split <;> simp
@[simp] theorem State.countArg_readData (s : State) (a : Arg) : (s.countArg a).readData = s.readData := by
  unfold State.countArg; split <;> simp
@[simp] theorem State.countArg_outRead (s : State) (a : Arg) : (s.countArg a).outRead = s.outRead := by
  unfold State.countArg; split <;> simp
@[simp] theorem State.countArg_turns (s : State) (a : Arg) : (s.countArg a).turns = s.turns := by
  unfold State.countArg; split <;> simp
@[simp] theorem State.countArg_lenAt (s : State) (a : Arg) (z : Symbol) : (s.countArg a).lenAt z = s.lenAt z := by
  simp [State.lenAt]
@[simp] theorem State.countArg_codeAt (s : State) (a : Arg) (z : Symbol) : (s.countArg a).codeAt z = s.codeAt z := by
  simp [State.codeAt]

/-! ## Completions (R98, R105, R111, R114): never the counts, the host's side, ERR or CTRL -/

@[simp] theorem State.completeGencodes_fmt (s : State) : (s.completeGencodes).fmt = s.fmt := by
  simp [State.completeGencodes]
@[simp] theorem State.completeGencodes_errCode (s : State) : (s.completeGencodes).errCode = s.errCode := by
  simp [State.completeGencodes]
@[simp] theorem State.completeGencodes_errCmd (s : State) : (s.completeGencodes).errCmd = s.errCmd := by
  simp [State.completeGencodes]
@[simp] theorem State.completeGencodes_freq (s : State) : (s.completeGencodes).freq = s.freq := by
  simp [State.completeGencodes]
@[simp] theorem State.completeGencodes_total (s : State) : (s.completeGencodes).total = s.total := by
  simp [State.completeGencodes]
@[simp] theorem State.completeGencodes_nsym (s : State) : (s.completeGencodes).nsym = s.nsym := by
  simp [State.completeGencodes]
@[simp] theorem State.completeGencodes_treeV (s : State) : (s.completeGencodes).treeV = s.treeV := by
  simp [State.completeGencodes]
@[simp] theorem State.completeGencodes_root (s : State) : (s.completeGencodes).root = s.root := by
  simp [State.completeGencodes]
@[simp] theorem State.completeGencodes_node (s : State) : (s.completeGencodes).node = s.node := by
  simp [State.completeGencodes]
@[simp] theorem State.completeGencodes_encFmt (s : State) : (s.completeGencodes).encFmt = s.encFmt := by
  simp [State.completeGencodes]
@[simp] theorem State.completeGencodes_acc (s : State) : (s.completeGencodes).acc = s.acc := by
  simp [State.completeGencodes]
@[simp] theorem State.completeGencodes_accN (s : State) : (s.completeGencodes).accN = s.accN := by
  simp [State.completeGencodes]
@[simp] theorem State.completeGencodes_encN (s : State) : (s.completeGencodes).encN = s.encN := by
  simp [State.completeGencodes]
@[simp] theorem State.completeGencodes_outBits (s : State) : (s.completeGencodes).outBits = s.outBits := by
  simp [State.completeGencodes]
@[simp] theorem State.completeGencodes_fifo (s : State) : (s.completeGencodes).fifo = s.fifo := by
  simp [State.completeGencodes]
@[simp] theorem State.completeGencodes_res (s : State) : (s.completeGencodes).res = s.res := by
  simp [State.completeGencodes]
@[simp] theorem State.completeGencodes_prog (s : State) : (s.completeGencodes).prog = s.prog := by
  simp [State.completeGencodes]
@[simp] theorem State.completeGencodes_readData (s : State) : (s.completeGencodes).readData = s.readData := by
  simp [State.completeGencodes]
@[simp] theorem State.completeGencodes_outRead (s : State) : (s.completeGencodes).outRead = s.outRead := by
  simp [State.completeGencodes]
@[simp] theorem State.completeGencodes_turns (s : State) : (s.completeGencodes).turns = s.turns := by
  simp [State.completeGencodes]
@[simp] theorem State.completeGencodes_freqAt (s : State) (z : Symbol) : (s.completeGencodes).freqAt z = s.freqAt z := by
  simp [State.freqAt]

@[simp] theorem State.completeEncode_fmt (s : State) (p : Pending) : (s.completeEncode p).fmt = s.fmt := by
  simp [State.completeEncode]
@[simp] theorem State.completeEncode_errCode (s : State) (p : Pending) : (s.completeEncode p).errCode = s.errCode := by
  simp [State.completeEncode]
@[simp] theorem State.completeEncode_errCmd (s : State) (p : Pending) : (s.completeEncode p).errCmd = s.errCmd := by
  simp [State.completeEncode]
@[simp] theorem State.completeEncode_freq (s : State) (p : Pending) : (s.completeEncode p).freq = s.freq := by
  simp [State.completeEncode]
@[simp] theorem State.completeEncode_total (s : State) (p : Pending) : (s.completeEncode p).total = s.total := by
  simp [State.completeEncode]
@[simp] theorem State.completeEncode_nsym (s : State) (p : Pending) : (s.completeEncode p).nsym = s.nsym := by
  simp [State.completeEncode]
@[simp] theorem State.completeEncode_treeV (s : State) (p : Pending) : (s.completeEncode p).treeV = s.treeV := by
  simp [State.completeEncode]
@[simp] theorem State.completeEncode_root (s : State) (p : Pending) : (s.completeEncode p).root = s.root := by
  simp [State.completeEncode]
@[simp] theorem State.completeEncode_node (s : State) (p : Pending) : (s.completeEncode p).node = s.node := by
  simp [State.completeEncode]
@[simp] theorem State.completeEncode_codesV (s : State) (p : Pending) : (s.completeEncode p).codesV = s.codesV := by
  simp [State.completeEncode]
@[simp] theorem State.completeEncode_maxLen (s : State) (p : Pending) : (s.completeEncode p).maxLen = s.maxLen := by
  simp [State.completeEncode]
@[simp] theorem State.completeEncode_wsum (s : State) (p : Pending) : (s.completeEncode p).wsum = s.wsum := by
  simp [State.completeEncode]
@[simp] theorem State.completeEncode_len (s : State) (p : Pending) : (s.completeEncode p).len = s.len := by
  simp [State.completeEncode]
@[simp] theorem State.completeEncode_code (s : State) (p : Pending) : (s.completeEncode p).code = s.code := by
  simp [State.completeEncode]
@[simp] theorem State.completeEncode_res (s : State) (p : Pending) : (s.completeEncode p).res = s.res := by
  simp [State.completeEncode]
@[simp] theorem State.completeEncode_free (s : State) (p : Pending) : (s.completeEncode p).free = s.free := by
  simp [State.completeEncode]
@[simp] theorem State.completeEncode_prog (s : State) (p : Pending) : (s.completeEncode p).prog = s.prog := by
  simp [State.completeEncode]
@[simp] theorem State.completeEncode_readData (s : State) (p : Pending) : (s.completeEncode p).readData = s.readData := by
  simp [State.completeEncode]
@[simp] theorem State.completeEncode_outRead (s : State) (p : Pending) : (s.completeEncode p).outRead = s.outRead := by
  simp [State.completeEncode]
@[simp] theorem State.completeEncode_turns (s : State) (p : Pending) : (s.completeEncode p).turns = s.turns := by
  simp [State.completeEncode]
@[simp] theorem State.completeEncode_freqAt (s : State) (p : Pending) (z : Symbol) : (s.completeEncode p).freqAt z = s.freqAt z := by
  simp [State.freqAt]
@[simp] theorem State.completeEncode_lenAt (s : State) (p : Pending) (z : Symbol) : (s.completeEncode p).lenAt z = s.lenAt z := by
  simp [State.lenAt]
@[simp] theorem State.completeEncode_codeAt (s : State) (p : Pending) (z : Symbol) : (s.completeEncode p).codeAt z = s.codeAt z := by
  simp [State.codeAt]

@[simp] theorem State.completeFlush_fmt (s : State) (p : Pending) : (s.completeFlush p).fmt = s.fmt := by
  simp [State.completeFlush]
@[simp] theorem State.completeFlush_errCode (s : State) (p : Pending) : (s.completeFlush p).errCode = s.errCode := by
  simp [State.completeFlush]
@[simp] theorem State.completeFlush_errCmd (s : State) (p : Pending) : (s.completeFlush p).errCmd = s.errCmd := by
  simp [State.completeFlush]
@[simp] theorem State.completeFlush_freq (s : State) (p : Pending) : (s.completeFlush p).freq = s.freq := by
  simp [State.completeFlush]
@[simp] theorem State.completeFlush_total (s : State) (p : Pending) : (s.completeFlush p).total = s.total := by
  simp [State.completeFlush]
@[simp] theorem State.completeFlush_nsym (s : State) (p : Pending) : (s.completeFlush p).nsym = s.nsym := by
  simp [State.completeFlush]
@[simp] theorem State.completeFlush_treeV (s : State) (p : Pending) : (s.completeFlush p).treeV = s.treeV := by
  simp [State.completeFlush]
@[simp] theorem State.completeFlush_root (s : State) (p : Pending) : (s.completeFlush p).root = s.root := by
  simp [State.completeFlush]
@[simp] theorem State.completeFlush_node (s : State) (p : Pending) : (s.completeFlush p).node = s.node := by
  simp [State.completeFlush]
@[simp] theorem State.completeFlush_codesV (s : State) (p : Pending) : (s.completeFlush p).codesV = s.codesV := by
  simp [State.completeFlush]
@[simp] theorem State.completeFlush_maxLen (s : State) (p : Pending) : (s.completeFlush p).maxLen = s.maxLen := by
  simp [State.completeFlush]
@[simp] theorem State.completeFlush_wsum (s : State) (p : Pending) : (s.completeFlush p).wsum = s.wsum := by
  simp [State.completeFlush]
@[simp] theorem State.completeFlush_len (s : State) (p : Pending) : (s.completeFlush p).len = s.len := by
  simp [State.completeFlush]
@[simp] theorem State.completeFlush_code (s : State) (p : Pending) : (s.completeFlush p).code = s.code := by
  simp [State.completeFlush]
@[simp] theorem State.completeFlush_encN (s : State) (p : Pending) : (s.completeFlush p).encN = s.encN := by
  simp [State.completeFlush]
@[simp] theorem State.completeFlush_outBits (s : State) (p : Pending) : (s.completeFlush p).outBits = s.outBits := by
  simp [State.completeFlush]
@[simp] theorem State.completeFlush_res (s : State) (p : Pending) : (s.completeFlush p).res = s.res := by
  simp [State.completeFlush]
@[simp] theorem State.completeFlush_free (s : State) (p : Pending) : (s.completeFlush p).free = s.free := by
  simp [State.completeFlush]
@[simp] theorem State.completeFlush_prog (s : State) (p : Pending) : (s.completeFlush p).prog = s.prog := by
  simp [State.completeFlush]
@[simp] theorem State.completeFlush_readData (s : State) (p : Pending) : (s.completeFlush p).readData = s.readData := by
  simp [State.completeFlush]
@[simp] theorem State.completeFlush_outRead (s : State) (p : Pending) : (s.completeFlush p).outRead = s.outRead := by
  simp [State.completeFlush]
@[simp] theorem State.completeFlush_turns (s : State) (p : Pending) : (s.completeFlush p).turns = s.turns := by
  simp [State.completeFlush]
@[simp] theorem State.completeFlush_freqAt (s : State) (p : Pending) (z : Symbol) : (s.completeFlush p).freqAt z = s.freqAt z := by
  simp [State.freqAt]
@[simp] theorem State.completeFlush_lenAt (s : State) (p : Pending) (z : Symbol) : (s.completeFlush p).lenAt z = s.lenAt z := by
  simp [State.lenAt]
@[simp] theorem State.completeFlush_codeAt (s : State) (p : Pending) (z : Symbol) : (s.completeFlush p).codeAt z = s.codeAt z := by
  simp [State.codeAt]

@[simp] theorem State.complete_fmt (s : State) (p : Pending) : (s.complete p).fmt = s.fmt := by
  unfold State.complete; split <;> simp
@[simp] theorem State.complete_errCode (s : State) (p : Pending) : (s.complete p).errCode = s.errCode := by
  unfold State.complete; split <;> simp
@[simp] theorem State.complete_errCmd (s : State) (p : Pending) : (s.complete p).errCmd = s.errCmd := by
  unfold State.complete; split <;> simp
@[simp] theorem State.complete_freq (s : State) (p : Pending) : (s.complete p).freq = s.freq := by
  unfold State.complete; split <;> simp
@[simp] theorem State.complete_total (s : State) (p : Pending) : (s.complete p).total = s.total := by
  unfold State.complete; split <;> simp
@[simp] theorem State.complete_nsym (s : State) (p : Pending) : (s.complete p).nsym = s.nsym := by
  unfold State.complete; split <;> simp
@[simp] theorem State.complete_res (s : State) (p : Pending) : (s.complete p).res = s.res := by
  unfold State.complete; split <;> simp
@[simp] theorem State.complete_prog (s : State) (p : Pending) : (s.complete p).prog = s.prog := by
  unfold State.complete; split <;> simp
@[simp] theorem State.complete_readData (s : State) (p : Pending) : (s.complete p).readData = s.readData := by
  unfold State.complete; split <;> simp
@[simp] theorem State.complete_outRead (s : State) (p : Pending) : (s.complete p).outRead = s.outRead := by
  unfold State.complete; split <;> simp
@[simp] theorem State.complete_turns (s : State) (p : Pending) : (s.complete p).turns = s.turns := by
  unfold State.complete; split <;> simp
@[simp] theorem State.complete_freqAt (s : State) (p : Pending) (z : Symbol) : (s.complete p).freqAt z = s.freqAt z := by
  simp [State.freqAt]

@[simp] theorem State.engineStep_fmt (s : State) : (s.engineStep).fmt = s.fmt := by
  unfold State.engineStep; split <;> [skip; split] <;> simp
@[simp] theorem State.engineStep_errCode (s : State) : (s.engineStep).errCode = s.errCode := by
  unfold State.engineStep; split <;> [skip; split] <;> simp
@[simp] theorem State.engineStep_errCmd (s : State) : (s.engineStep).errCmd = s.errCmd := by
  unfold State.engineStep; split <;> [skip; split] <;> simp
@[simp] theorem State.engineStep_freq (s : State) : (s.engineStep).freq = s.freq := by
  unfold State.engineStep; split <;> [skip; split] <;> simp
@[simp] theorem State.engineStep_total (s : State) : (s.engineStep).total = s.total := by
  unfold State.engineStep; split <;> [skip; split] <;> simp
@[simp] theorem State.engineStep_nsym (s : State) : (s.engineStep).nsym = s.nsym := by
  unfold State.engineStep; split <;> [skip; split] <;> simp
@[simp] theorem State.engineStep_res (s : State) : (s.engineStep).res = s.res := by
  unfold State.engineStep; split <;> [skip; split] <;> simp
@[simp] theorem State.engineStep_prog (s : State) : (s.engineStep).prog = s.prog := by
  unfold State.engineStep; split <;> [skip; split] <;> simp
@[simp] theorem State.engineStep_readData (s : State) : (s.engineStep).readData = s.readData := by
  unfold State.engineStep; split <;> [skip; split] <;> simp
@[simp] theorem State.engineStep_outRead (s : State) : (s.engineStep).outRead = s.outRead := by
  unfold State.engineStep; split <;> [skip; split] <;> simp
@[simp] theorem State.engineStep_turns (s : State) : (s.engineStep).turns = s.turns := by
  unfold State.engineStep; split <;> [skip; split] <;> simp
@[simp] theorem State.engineStep_freqAt (s : State) (z : Symbol) : (s.engineStep).freqAt z = s.freqAt z := by
  simp [State.freqAt]

/-- Every completion step ends with BUSY = 0 (R81). -/
@[simp] theorem State.complete_pend (s : State) (p : Pending) : (s.complete p).pend = none := by
  unfold State.complete
  split <;> simp [State.completeGencodes, State.completeEncode, State.completeFlush]

end Sys2Proof.Machine
end

