-- ==== Sys2Proof/Laws/Operands.lean ====
section
/-!
SUPPORT. What each operand form and memory accessor gives (spec/30_encoding.md rule R66, spec/10_state.md rules R26
to R33).
-/

namespace Sys2Proof.Machine

/-! ## Symbols -/

theorem argSymbol_of_le {a : Arg} (h : a.toNat ≤ 255) : argSymbol a = some (a.setWidth 8) := if_pos h

theorem argSymbol_of_gt {a : Arg} (h : 255 < a.toNat) : argSymbol a = none := if_neg (by omega)

/-- The symbols an argument can name (R66). -/
theorem argSymbol_eq_some {a : Arg} {y : Symbol} : argSymbol a = some y ↔ a = leafIndex y := by
  unfold argSymbol leafIndex
  constructor
  · intro h
    split at h
    · cases h
      apply BitVec.eq_of_toNat_eq
      simp only [BitVec.toNat_setWidth]
      have := a.isLt
      omega
    · cases h
  · rintro rfl
    have := y.isLt
    rw [if_pos (by simp only [BitVec.toNat_setWidth]; omega)]
    congr 1
    apply BitVec.eq_of_toNat_eq
    simp only [BitVec.toNat_setWidth]
    omega

theorem argSymbol_eq_none {a : Arg} : argSymbol a = none ↔ 255 < a.toNat := by
  unfold argSymbol
  split <;> simp <;> omega

@[simp] theorem argSymbol_leafIndex (y : Symbol) : argSymbol (leafIndex y) = some y := argSymbol_eq_some.2 rfl

@[simp] theorem toNat_leafIndex (y : Symbol) : (leafIndex y).toNat = y.toNat := by
  have := y.isLt
  simp only [leafIndex, BitVec.toNat_setWidth]; omega

theorem leafIndex_inj {y z : Symbol} : leafIndex y = leafIndex z ↔ y = z := by
  constructor
  · intro h
    apply BitVec.eq_of_toNat_eq
    have := congrArg BitVec.toNat h
    simpa using this
  · rintro rfl; rfl

theorem toNat_internalIndex {k : Nat} (h : k < 256) : (internalIndex k).toNat = 256 + k := by
  simp only [internalIndex, BitVec.toNat_ofNat]; omega

theorem argSymbol_internalIndex {k : Nat} (h : k < 256) : argSymbol (internalIndex k) = none :=
  argSymbol_eq_none.2 (by rw [toNat_internalIndex h]; omega)

@[simp] theorem mem_allSymbols (y : Symbol) : y ∈ allSymbols := by
  simp only [allSymbols, List.mem_map, List.mem_range]
  exact ⟨y.toNat, y.isLt, by simp⟩

theorem nodup_allSymbols : allSymbols.Nodup := by
  unfold allSymbols
  rw [List.nodup_map_iff_inj_on List.nodup_range]
  intro a ha b hb h
  have := congrArg BitVec.toNat h
  simp only [List.mem_range, BitVec.toNat_ofNat] at *
  omega

@[simp] theorem length_allSymbols : allSymbols.length = 256 := by simp [allSymbols]

/-! ## Memories -/

theorem State.freqAt_setFreq (s : State) (y z : Symbol) (v : Word) :
    (s.setFreq y v).freqAt z = if z = y then v else s.freqAt z := by
  simp only [State.freqAt, State.setFreq_freq, Vector.getElem_set]
  by_cases h : z = y
  · simp [h]
  · have : y.toNat ≠ z.toNat := fun e => h (BitVec.eq_of_toNat_eq e.symm)
    simp [h, this]

theorem State.freqAt_countSymbol (s : State) (y z : Symbol) :
    (s.countSymbol y).freqAt z = if z = y then s.freqAt y + 1#32 else s.freqAt z :=
  s.freqAt_setFreq y z _

@[simp] theorem State.codeBits_length (s : State) (y : Symbol) : (s.codeBits y).length = (s.lenAt y).toNat := by
  simp [State.codeBits]

/-- With a stored string of LEN[s] bits, the code is that string (R33). -/
theorem State.codeBits_eq {s : State} {y : Symbol} (h : (s.lenAt y).toNat = (s.codeAt y).length) :
    s.codeBits y = s.codeAt y := by
  apply List.ext_getElem
  · simp [h]
  · intro i h1 h2
    simp [State.codeBits, State.codeBit, List.getD_eq_getElem?_getD, List.getElem?_eq_getElem h2]

theorem State.nodeAt_internalIndex (s : State) (k : Fin 255) : s.nodeAt (internalIndex k.val) = some s.node[k] := by
  have hk : (internalIndex k.val).toNat = 256 + k.val := toNat_internalIndex (by omega)
  unfold State.nodeAt
  rw [if_neg (by omega), hk, Nat.add_sub_cancel_left]
  simp

@[simp] theorem State.nodeAt_leafIndex (s : State) (y : Symbol) : s.nodeAt (leafIndex y) = none := by
  have := y.isLt
  unfold State.nodeAt
  rw [if_pos (by rw [toNat_leafIndex]; omega)]

/-- An index that names no leaf and is not 511 has an entry (R28). -/
theorem State.nodeAt_eq_some {s : State} {n : NodeIndex} {e : NodeEntry} (h : s.nodeAt n = some e) :
    ∃ k : Fin 255, n = internalIndex k.val ∧ e = s.node[k] := by
  unfold State.nodeAt at h
  split at h
  · cases h
  · have hn : n.toNat - 256 < 255 := by
      by_contra hc
      rw [Vector.getElem?_eq_none (by omega)] at h
      cases h
    rw [Vector.getElem?_eq_getElem hn] at h
    refine ⟨⟨n.toNat - 256, hn⟩, ?_, ?_⟩
    · apply BitVec.eq_of_toNat_eq
      rw [toNat_internalIndex (by simp; omega)]
      simp; omega
    · simpa using h.symm

/-! ## LEN, CODE and NODE as the completions write them -/

theorem lengthsFrom_getElem (as : List (Symbol × List Bool)) (i : Nat) (h : i < 256) :
    (lengthsFrom as)[i] =
      match assignedCode as (BitVec.ofNat 8 i) with
      | some p => BitVec.ofNat 8 p.length
      | none => 0#8 := by
  unfold lengthsFrom
  exact Vector.getElem_ofFn _

theorem codesFrom_getElem (count : Nat) (as : List (Symbol × List Bool)) (i : Nat) (h : i < 256) :
    (codesFrom count as)[i] = (assignedCode as (BitVec.ofNat 8 i)).getD (Config.freeCode count i) := by
  unfold codesFrom
  rw [Vector.getElem_ofFn]

theorem State.lenAt_withCodes (s : State) (as : List (Symbol × List Bool)) (y : Symbol) :
    (s.withCodes as).lenAt y =
      match assignedCode as y with
      | some p => BitVec.ofNat 8 p.length
      | none => 0#8 := by
  have h := lengthsFrom_getElem as y.toNat y.isLt
  rw [BitVec.ofNat_toNat, BitVec.setWidth_eq] at h
  exact h

theorem State.codeAt_withCodes (s : State) (as : List (Symbol × List Bool)) (y : Symbol) :
    (s.withCodes as).codeAt y = (assignedCode as y).getD (Config.freeCode s.free y.toNat) := by
  have h := codesFrom_getElem s.free as y.toNat y.isLt
  rw [BitVec.ofNat_toNat, BitVec.setWidth_eq] at h
  exact h

theorem nodesFrom_getElem (count : Nat) (made : List NodeEntry) (k : Fin 255) {e : NodeEntry}
    (h : made[k.val]? = some e) : (nodesFrom count made)[k] = e := by
  have : (nodesFrom count made)[k.val]'k.isLt = e := by
    unfold nodesFrom
    rw [Vector.getElem_ofFn, List.getD_eq_getElem?_getD, h, Option.getD_some]
  exact this

theorem State.res_setRes (s : State) (ws : List Word) (i : Fin 9) : (s.setRes ws).res[i] = ws.getD i.val 0#32 := by
  simp [State.setRes]

end Sys2Proof.Machine
end

