-- ==== Sys2Proof/Laws/Accept.lean ====
section
/-!
SUPPORT. Command acceptance (spec/40_host_port.md rule R78): what accept gives in each case, and everything that
accepting a command can do.
-/

namespace Sys2Proof.Machine

/-! ## The cases of accept -/

theorem accept_busy {i : Instr} {pre : Option ErrorCode} {e s : State} (h : s.busy = true) :
    accept i pre e s = .next (s.raise .cmdWhileBusy (encodeWord i)) := by
  simp [accept, h]

theorem accept_in_error {i : Instr} {pre : Option ErrorCode} {e s : State} (h : s.busy = false)
    (hp : s.phase = .error) : accept i pre e s = .next (if runsInError i then e else s) := by
  simp only [accept, h, hp]
  cases runsInError i <;> rfl

theorem accept_out_of_phase {i : Instr} {pre : Option ErrorCode} {e s : State} (h : s.busy = false)
    (hp : s.phase ≠ .error) (hl : legalIn i s.phase = false) :
    accept i pre e s = .next (s.raise .sequence (encodeWord i)) := by
  simp [accept, h, hp, hl]

theorem accept_precheck {i : Instr} {c : ErrorCode} {e s : State} (h : s.busy = false)
    (hp : s.phase ≠ .error) (hl : legalIn i s.phase = true) :
    accept i (some c) e s = .next (s.raise c (encodeWord i)) := by
  simp [accept, h, hp, hl]

theorem accept_ok {i : Instr} {e s : State} (h : s.busy = false)
    (hp : s.phase ≠ .error) (hl : legalIn i s.phase = true) : accept i none e s = .next e := by
  simp [accept, h, hp, hl]

/-- A command that runs in every phase is accepted whenever BUSY = 0. -/
theorem accept_always {i : Instr} {e s : State} (h : s.busy = false) (hr : runsInError i = true) :
    accept i none e s = .next e := by
  by_cases hp : s.phase = .error
  · simp [accept_in_error h hp, hr]
  · apply accept_ok h hp
    cases i <;> simp_all [runsInError, legalIn]

/-- What an answer of accept can be. -/
theorem accept_cases {i : Instr} {pre : Option ErrorCode} {e s t : State} (h : accept i pre e s = .next t) :
    (s.busy = true ∧ t = s.raise .cmdWhileBusy (encodeWord i)) ∨
    (s.busy = false ∧ s.phase = .error ∧ t = if runsInError i then e else s) ∨
    (s.busy = false ∧ s.phase ≠ .error ∧ legalIn i s.phase = false ∧ t = s.raise .sequence (encodeWord i)) ∨
    (s.busy = false ∧ s.phase ≠ .error ∧ legalIn i s.phase = true ∧ ∃ c, pre = some c ∧
      t = s.raise c (encodeWord i)) ∨
    (s.busy = false ∧ s.phase ≠ .error ∧ legalIn i s.phase = true ∧ pre = none ∧ t = e) := by
  cases hb : s.busy
  · by_cases hp : s.phase = .error
    · rw [accept_in_error hb hp] at h
      cases h
      exact .inr (.inl ⟨rfl, hp, rfl⟩)
    · cases hl : legalIn i s.phase
      · rw [accept_out_of_phase hb hp hl] at h
        cases h
        exact .inr (.inr (.inl ⟨rfl, hp, rfl, rfl⟩))
      · cases pre with
        | some c =>
          rw [accept_precheck hb hp hl] at h
          cases h
          exact .inr (.inr (.inr (.inl ⟨rfl, hp, rfl, c, rfl, rfl⟩)))
        | none =>
          rw [accept_ok hb hp hl] at h
          cases h
          exact .inr (.inr (.inr (.inr ⟨rfl, hp, rfl, rfl, rfl⟩)))
  · rw [accept_busy hb] at h
    cases h
    exact .inl ⟨rfl, rfl⟩

/-- accept answers a next state, always. -/
theorem accept_next (i : Instr) (pre : Option ErrorCode) (e s : State) : ∃ t, accept i pre e s = .next t := by
  unfold accept
  split
  · exact ⟨_, rfl⟩
  · split
    · split <;> exact ⟨_, rfl⟩
    · split
      · split <;> exact ⟨_, rfl⟩
      · exact ⟨_, rfl⟩

theorem acceptIllegal_next (w : Word) (s : State) : ∃ t, acceptIllegal w s = .next t := by
  unfold acceptIllegal
  split
  · exact ⟨_, rfl⟩
  · split <;> exact ⟨_, rfl⟩

/-- What an answer of acceptIllegal can be. -/
theorem acceptIllegal_cases {w : Word} {s t : State} (h : acceptIllegal w s = .next t) :
    (s.busy = true ∧ t = s.raise .cmdWhileBusy w) ∨ (s.busy = false ∧ s.phase = .error ∧ t = s) ∨
    (s.busy = false ∧ s.phase ≠ .error ∧ t = s.raise .illegalCmd w) := by
  unfold acceptIllegal at h
  split at h
  · cases h; exact .inl ⟨‹_›, rfl⟩
  · have hb : s.busy = false := by simpa using ‹¬ s.busy = true›
    split at h
    · cases h; exact .inr (.inl ⟨hb, ‹_›, rfl⟩)
    · cases h; exact .inr (.inr ⟨hb, ‹_›, rfl⟩)

/-- Every meaning but CLEAR's is an accept. -/
theorem exec_eq_accept (i : Instr) (s : State) (h : i ≠ .clear) :
    exec i s = accept i (precheckOf i s) (match i with
      | .count a => s.countArg a
      | .readFreq a => s.setRes (s.freqReadout a)
      | .build => s.defer .build 0#9
      | .readNode a => s.setRes (s.nodeReadout a)
      | .gencodes => s.defer .gencodes 0#9
      | .readCode a => s.setRes (s.codeReadout a)
      | .encode a => s.defer .encode a
      | .flush => s.defer .flush 0#9
      | .nop => s
      | .clear => s) s := by
  cases i <;> first | rfl | exact absurd rfl h

/-- exec answers a next state for every command in every state. -/
theorem exec_next (i : Instr) (s : State) : ∃ t, exec i s = .next t := by
  by_cases h : i = .clear
  · subst h; exact ⟨_, rfl⟩
  · rw [exec_eq_accept i s h]; exact accept_next ..

/-- A precheck never reports NONE. -/
theorem precheckOf_ne_none {i : Instr} {s : State} {c : ErrorCode} (h : precheckOf i s = some c) : c ≠ .none := by
  cases i <;> simp only [precheckOf, countPrecheck, buildPrecheck, encodePrecheck] at h
  all_goals first | cases h | skip
  · split at h <;> cases h; simp
  · split at h <;> cases h; simp
  · split at h
    · cases h; simp
    · split at h
      · cases h; simp
      · split at h <;> cases h; simp

/-- The command that is deferred under an operation and an argument (R81). -/
def DeferredOp.instr (op : DeferredOp) (a : Arg) : Instr :=
  match op with
  | .build => .build
  | .gencodes => .gencodes
  | .encode => .encode a
  | .flush => .flush

/-- Everything accepting a legal command word can do (R78, R80, R81). -/
inductive ExecCase (i : Instr) (s t : State) : Prop where
  /-- CLEAR, in any state. -/
  | cleared (hi : i = .clear) (ht : t = s.clear)
  /-- An error is raised. -/
  | raised (e : ErrorCode) (he : e ≠ .none) (hp : s.busy = true ∨ s.phase ≠ .error)
      (ht : t = s.raise e (encodeWord i))
  /-- No effect: NOP, or a command that does not execute in ERROR. -/
  | noEffect (hb : s.busy = false) (ht : t = s)
  /-- A COUNT. -/
  | counted (a : Arg) (hi : i = .count a) (hb : s.busy = false) (hp : s.phase = .count)
      (hc : countPrecheck a s = none) (ht : t = s.countArg a)
  /-- A readout. -/
  | readout (ws : List Word) (hi : i ≠ .clear) (hb : s.busy = false) (ht : t = s.setRes ws)
  /-- A deferred command is accepted. -/
  | deferred (op : DeferredOp) (a : Arg) (hb : s.busy = false) (hp : pendingLegal op s.phase = true)
      (hi : i = op.instr a)
      (hc : precheckOf i s = none) (ht : t = s.defer op a)

/-- The inversion of exec. -/
theorem exec_cases {i : Instr} {s t : State} (h : exec i s = .next t) : ExecCase i s t := by
  by_cases hc : i = .clear
  · subst hc
    cases h
    exact .cleared rfl rfl
  · rw [exec_eq_accept i s hc] at h
    rcases accept_cases h with ⟨hb, ht⟩ | ⟨hb, hp, ht⟩ | ⟨hb, hp, _, ht⟩ | ⟨hb, hp, _, c, hpre, ht⟩ |
      ⟨hb, hp, hl, hpre, ht⟩
    · exact .raised _ (by simp) (.inl hb) ht
    · cases i <;> simp only [runsInError, if_true, if_false, Bool.false_eq_true] at ht
      all_goals first
        | exact .noEffect hb ht
        | exact .readout _ (by simp) hb ht
    · exact .raised _ (by simp) (.inr hp) ht
    · exact .raised c (precheckOf_ne_none hpre) (.inr hp) ht
    · cases i <;> simp only [legalIn] at hl <;> dsimp only at ht
      · exact .noEffect hb ht
      · exact absurd rfl hc
      · exact .counted _ rfl hb (by simpa using hl) hpre ht
      · exact .readout _ (by simp) hb ht
      · exact .deferred .build _ hb hl rfl hpre ht
      · exact .readout _ (by simp) hb ht
      · exact .deferred .gencodes _ hb hl rfl hpre ht
      · exact .readout _ (by simp) hb ht
      · exact .deferred .encode _ hb hl rfl hpre ht
      · exact .deferred .flush _ hb hl rfl hpre ht

end Sys2Proof.Machine
end

