-- ==== Sys2Proof/Laws/Config.lean ====
section
/-!
SUPPORT. The bounds of the open parameters (spec/00_scope.md rule R9).
-/

namespace Sys2Proof

theorem Config.dOut_eq : Config.dOut = Config.extraDepth.val + 256 := rfl

/-- D_OUT is at least 256 (R9). -/
theorem Config.le_dOut : 256 ≤ Config.dOut := by rw [Config.dOut_eq]; omega

/-- D_OUT is at most 4095 (R9). -/
theorem Config.dOut_le : Config.dOut ≤ 4095 := by
  have := Config.extraDepth.isLt
  rw [Config.dOut_eq]; omega

/-- An unspecified CODE entry keeps R33's bound. -/
theorem Config.freeCode_length (count s : Nat) : (Config.freeCode count s).length ≤ 255 := by
  simp [Config.freeCode]

end Sys2Proof
end

