-- ==== Sys2Proof/Laws/Engine.lean ====
section
/-!
SUPPORT. The engine's completion step (spec/40_host_port.md rule R81): what each completion writes, field by field,
what no completion changes, and what one bit of emission does (spec/44_encoder.md rule R116).
-/

namespace Sys2Proof.Machine

/-! ## The four completions -/

@[simp] theorem State.complete_build (s : State) (a : Arg) (f : Format) :
    s.complete { op := .build, arg := a, fmt := f } = s.completeBuild := rfl

@[simp] theorem State.complete_gencodes (s : State) (a : Arg) (f : Format) :
    s.complete { op := .gencodes, arg := a, fmt := f } = s.completeGencodes := rfl

@[simp] theorem State.complete_encode (s : State) (a : Arg) (f : Format) :
    s.complete { op := .encode, arg := a, fmt := f } = s.completeEncode { op := .encode, arg := a, fmt := f } := rfl

@[simp] theorem State.complete_flush (s : State) (a : Arg) (f : Format) :
    s.complete { op := .flush, arg := a, fmt := f } = s.completeFlush { op := .flush, arg := a, fmt := f } := rfl

/-! ## GENCODES (R105) -/

@[simp] theorem State.completeGencodes_pend (s : State) : s.completeGencodes.pend = none := rfl
@[simp] theorem State.completeGencodes_phase (s : State) : s.completeGencodes.phase = .coded := rfl
@[simp] theorem State.completeGencodes_codesV (s : State) : s.completeGencodes.codesV = true := rfl
@[simp] theorem State.completeGencodes_len (s : State) : s.completeGencodes.len = lengthsFrom s.assignments := rfl
@[simp] theorem State.completeGencodes_code (s : State) :
    s.completeGencodes.code = codesFrom s.free s.assignments := rfl
@[simp] theorem State.completeGencodes_free (s : State) : s.completeGencodes.free = s.free + 1 := rfl
theorem State.completeGencodes_wsum (s : State) :
    s.completeGencodes.wsum = BitVec.ofNat 64 (s.withCodes s.assignments).weightedLength := rfl
theorem State.completeGencodes_maxLen (s : State) :
    s.completeGencodes.maxLen = BitVec.ofNat 8 (s.withCodes s.assignments).longestCode := rfl
theorem State.completeGencodes_lenAt (s : State) (y : Symbol) :
    s.completeGencodes.lenAt y = (s.withCodes s.assignments).lenAt y := rfl
theorem State.completeGencodes_codeAt (s : State) (y : Symbol) :
    s.completeGencodes.codeAt y = (s.withCodes s.assignments).codeAt y := rfl

/-! ## ENCODE (R111) -/

@[simp] theorem State.completeEncode_pend (s : State) (p : Pending) : (s.completeEncode p).pend = none := rfl
@[simp] theorem State.completeEncode_phase (s : State) (p : Pending) :
    (s.completeEncode p).phase = if s.phase = .coded then .encoding else s.phase := by
  simp [State.completeEncode]
@[simp] theorem State.completeEncode_encFmt (s : State) (p : Pending) :
    (s.completeEncode p).encFmt = if s.phase = .coded then p.fmt else s.encFmt := by
  simp [State.completeEncode]
@[simp] theorem State.completeEncode_encN (s : State) (p : Pending) : (s.completeEncode p).encN = s.encN + 1#32 := by
  simp [State.completeEncode]
@[simp] theorem State.completeEncode_outBits (s : State) (p : Pending) :
    (s.completeEncode p).outBits = s.outBits + (s.lenAt (argLow p.arg)).setWidth 64 := by
  simp [State.completeEncode]

/-! ## FLUSH (R114) -/

@[simp] theorem State.completeFlush_pend (s : State) (p : Pending) : (s.completeFlush p).pend = none := rfl
@[simp] theorem State.completeFlush_phase (s : State) (p : Pending) : (s.completeFlush p).phase = .done := rfl
@[simp] theorem State.completeFlush_encFmt (s : State) (p : Pending) :
    (s.completeFlush p).encFmt = if s.phase = .coded then p.fmt else s.encFmt := by
  simp [State.completeFlush]

/-! ## One bit of emission (R116) -/

theorem State.emitBit_packed {s : State} (h : s.encFmt = .packed) (b : Bool) : s.emitBit b = s.emitPacked b := by
  simp [State.emitBit, h]

theorem State.emitBit_textual {s : State} (h : s.encFmt = .textual) (b : Bool) : s.emitBit b = s.emitTextual b := by
  simp [State.emitBit, h]

theorem State.emitPacked_full {s : State} (h : s.accN.toNat = 7) (b : Bool) :
    s.emitPacked b = { s with fifo := s.fifo ++ [shiftIn s.acc b], acc := 0#8, accN := 0#3 } := by
  simp [State.emitPacked, h, State.push]

theorem State.emitPacked_partial {s : State} (h : s.accN.toNat < 7) (b : Bool) :
    s.emitPacked b = { s with acc := shiftIn s.acc b, accN := s.accN + 1#3 } := by
  unfold State.emitPacked
  rw [if_neg (by omega)]

/-- The accumulator's bits after a shift: the new bit below, the old ones one place up (R116). -/
theorem getLsbD_shiftIn (acc : Byte) (b : Bool) (i : Nat) :
    (shiftIn acc b).getLsbD i = if i = 0 then b else decide (i < 8) && acc.getLsbD (i - 1) := by
  unfold shiftIn
  rw [BitVec.getLsbD_or, BitVec.getLsbD_shiftLeft]
  cases i with
  | zero => cases b <;> rfl
  | succ n =>
    have : (if b then 1#8 else 0#8).getLsbD (n + 1) = false := by
      cases b
      · simp
      · exact BitVec.getLsbD_one.trans (by simp)
    simp [this]

/-- Emission neither reads nor changes PEND. -/
theorem State.emitBits_withPend (bs : List Bool) : ∀ (s : State) (p : Option Pending),
    State.emitBits { s with pend := p } bs = { s.emitBits bs with pend := p } := by
  induction bs with
  | nil => intro s p; rfl
  | cons b bs ih =>
    intro s p
    have hb : State.emitBit { s with pend := p } b = { s.emitBit b with pend := p } := by
      unfold State.emitBit State.emitPacked State.emitTextual State.push
      dsimp only
      split
      · split <;> rfl
      · rfl
    rw [State.emitBits_cons, State.emitBits_cons, hb, ih]

/-! ## FLUSH's last byte (R114) -/

theorem State.drainAcc_empty {s : State} (h : s.encFmt = .textual ∨ s.accN = 0#3) : s.drainAcc = s := by
  unfold State.drainAcc
  refine if_neg ?_
  rintro ⟨hp, hn⟩
  rcases h with h | h
  · rw [h] at hp; cases hp
  · rw [h] at hn; exact absurd hn (by decide)

theorem State.drainAcc_partial {s : State} (h : s.encFmt = .packed) (hn : s.accN ≠ 0#3) :
    s.drainAcc = { s with fifo := s.fifo ++ [s.acc <<< (8 - s.accN.toNat)], acc := 0#8, accN := 0#3 } := by
  unfold State.drainAcc
  rw [if_pos ⟨h, Nat.pos_of_ne_zero fun e => hn (BitVec.eq_of_toNat_eq e)⟩]
  rfl

/-! ## The engine's turn -/

theorem State.engineStep_none {s : State} (hp : s.pend = none) : s.engineStep = s := by
  simp [State.engineStep, hp]

theorem State.engineStep_held {s : State} {p : Pending} (hp : s.pend = some p) (he : s.completionEnabled p = false) :
    s.engineStep = s := by
  simp [State.engineStep, hp, he]

theorem State.engineStep_enabled {s : State} {p : Pending} (hp : s.pend = some p)
    (he : s.completionEnabled p = true) : s.engineStep = s.complete p := by
  simp [State.engineStep, hp, he]

/-- Everything a turn of the engine does (R7, R81). -/
theorem State.engineStep_cases (s : State) :
    ((∀ p, s.pend = some p → s.completionEnabled p = false) ∧ s.engineStep = s) ∨
    ∃ p, s.pend = some p ∧ s.completionEnabled p = true ∧ s.engineStep = s.complete p := by
  unfold State.engineStep
  cases hp : s.pend with
  | none => exact .inl ⟨by simp, rfl⟩
  | some p =>
    cases he : s.completionEnabled p
    · exact .inl ⟨fun q hq => by cases hq; exact he, if_neg (by simp [he])⟩
    · exact .inr ⟨p, rfl, he, if_pos he⟩

end Sys2Proof.Machine
end

