-- ==== Sys2Proof/Laws/PerInstr.lean ====
section
/-!
SUPPORT. The family LegalWord: what R68 and R72 (spec/30_encoding.md) say of every command's word.
-/

namespace Sys2Proof.Laws.LegalWord

/-- The word of a command is "(zext_32(arg) << 8) | op" (R72), and it is legal (R68). -/
def Statement (i : Instr) : Prop :=
  encodeWord i = (i.fields.arg.setWidth 32 <<< 8) ||| i.fields.op.setWidth 32 ∧
  (CommandFields.ofWord (encodeWord i)).wellFormed = true

/-- With RSV = 0 the three fields joined are R72's word. -/
theorem toWord_of_rsv_zero (op : Byte) (arg : Arg) :
    CommandFields.toWord { op := op, arg := arg, rsv := 0#15 } = (arg.setWidth 32 <<< 8) ||| op.setWidth 32 := by
  apply BitVec.eq_of_getLsbD_eq
  intro i hi
  simp only [CommandFields.toWord, BitVec.getLsbD_append, BitVec.getLsbD_or, BitVec.getLsbD_shiftLeft,
    BitVec.getLsbD_setWidth, BitVec.getLsbD_zero, hi, decide_true, Bool.true_and]
  rcases Nat.lt_or_ge i 8 with h | h
  · simp [h]
  · have h8 : ¬ i < 8 := by omega
    have h32 : i - 8 < 32 := by omega
    have hop : op.getLsbD i = false := BitVec.getLsbD_of_ge op i h
    rcases Nat.lt_or_ge (i - 8) 9 with h' | h'
    · simp [h8, h', h32, hop]
    · have h9 : ¬ i - 8 < 9 := by omega
      have harg : arg.getLsbD (i - 8) = false := BitVec.getLsbD_of_ge arg (i - 8) h'
      simp [h8, h9, hop, harg]

/-- A command whose fields are well formed has a legal word of R72's form. -/
theorem of_fields {i : Instr} (hr : i.fields.rsv = 0#15) (h : i.fields.wellFormed = true) : Statement i := by
  refine ⟨?_, by rw [ofWord_encodeWord]; exact h⟩
  have e := toWord_of_rsv_zero i.fields.op i.fields.arg
  rw [← hr] at e
  exact e

theorem nop : Statement .nop := of_fields rfl (by decide)
theorem clear : Statement .clear := of_fields rfl (by decide)
theorem count (arg : Arg) : Statement (.count arg) := of_fields rfl rfl
theorem readFreq (arg : Arg) : Statement (.readFreq arg) := of_fields rfl rfl
theorem build : Statement .build := of_fields rfl (by decide)
theorem readNode (arg : Arg) : Statement (.readNode arg) := of_fields rfl rfl
theorem gencodes : Statement .gencodes := of_fields rfl (by decide)
theorem readCode (arg : Arg) : Statement (.readCode arg) := of_fields rfl rfl
theorem encode (arg : Arg) : Statement (.encode arg) := of_fields rfl rfl
theorem flush : Statement .flush := of_fields rfl (by decide)

end Sys2Proof.Laws.LegalWord
end

