-- ==== Sys2Proof/Laws/Step.lean ====
section
/-!
SUPPORT. The host port and the step: everything one step of the machine can do (spec/20_memory.md rule R56,
spec/40_host_port.md rules R75 to R81).
-/

namespace Sys2Proof.Machine

/-! ## Registers -/

theorem Reg.ofIndex_index (r : Reg) : Reg.ofIndex r.index = some r := by
  cases r with
  | res i => fin_cases i <;> rfl
  | _ => rfl

/-- CMD stands at one offset only. -/
theorem Reg.ofIndex_eq_cmd {i : RegIndex} (h : Reg.ofIndex i = some .cmd) : i = Reg.cmd.index := by
  revert i; decide

/-- CTRL stands at one offset only. -/
theorem Reg.ofIndex_eq_ctrl {i : RegIndex} (h : Reg.ofIndex i = some .ctrl) : i = Reg.ctrl.index := by
  revert i; decide

/-- OUT_DATA stands at one offset only. -/
theorem Reg.ofIndex_eq_outData {i : RegIndex} (h : Reg.ofIndex i = some .outData) : i = Reg.outData.index := by
  revert i; decide

theorem State.hostRead_of_ne (s : State) {i : RegIndex} (h : i ≠ Reg.outData.index) :
    s.hostRead i = { s with readData := s.readValue i } := by
  unfold State.hostRead
  exact if_neg fun e => h (Reg.ofIndex_eq_outData e)

theorem State.hostRead_outData (s : State) :
    s.hostRead Reg.outData.index = State.popOutput { s with readData := s.outDataWord } := rfl

@[simp] theorem State.hostRead_readData (s : State) (i : RegIndex) : (s.hostRead i).readData = s.readValue i := by
  unfold State.hostRead; dsimp only; split <;> simp

theorem State.hostWrite_cmd (s : State) (v : Word) : s.hostWrite Reg.cmd.index v = acceptWord v s := rfl

/-- A host read does not depend on the statements still to make. -/
theorem State.hostRead_withProg (s : State) (i : RegIndex) (p : List HostOp) :
    State.hostRead { s with prog := p } i = { s.hostRead i with prog := p } := by
  by_cases hi : i = Reg.outData.index
  · subst hi
    cases hf : s.fifo <;> simp only [State.hostRead_outData, State.popOutput, State.outDataWord, hf]
  · rw [State.hostRead_of_ne _ hi, State.hostRead_of_ne _ hi]
    rfl

/-- A write that is not to CMD changes CTRL.FMT at most (R76). -/
theorem State.hostWrite_of_ne (s : State) {i : RegIndex} (v : Word) (h : i ≠ Reg.cmd.index) :
    ∃ f, s.hostWrite i v = .next { s with fmt := f } := by
  unfold State.hostWrite
  split
  · exact absurd (Reg.ofIndex_eq_cmd ‹_›) h
  · exact ⟨_, rfl⟩
  · exact ⟨s.fmt, rfl⟩

/-- Everything one step can do. -/
inductive StepCase (s t : State) : Prop where
  /-- The reset input. -/
  | reset (hn : s.nextTurn = .reset) (ht : t = s.endTurn.applyReset)
  /-- The engine, with no completion enabled. -/
  | engineIdle (hn : s.nextTurn = .engine) (hp : ∀ p, s.pend = some p → s.completionEnabled p = false)
      (ht : t = s.endTurn)
  /-- The engine completes the pending command. -/
  | completed (p : Pending) (hn : s.nextTurn = .engine) (hp : s.pend = some p) (he : s.completionEnabled p = true)
      (ht : t = s.endTurn.complete p)
  /-- The host reads a register. -/
  | read (i : RegIndex) (prog : List HostOp) (hn : s.nextTurn = .host) (hc : ∀ w, ¬ s.writesCommand w)
      (ht : t = { s.endTurn.hostRead i with prog := prog })
  /-- The host makes no access, or writes a register other than CMD. -/
  | wrote (f : Format) (prog : List HostOp) (hn : s.nextTurn = .host) (hc : ∀ w, ¬ s.writesCommand w)
      (ht : t = { s.endTurn with fmt := f, prog := prog })
  /-- The host writes a legal command word. -/
  | command (w : Word) (i : Instr) (hw : s.writesCommand w) (hd : decode w = .command i)
      (ht : ExecCase i s.endTurn.nextStatement t)
  /-- The host writes an illegal command word. -/
  | illegal (w : Word) (why : Illegal) (hw : s.writesCommand w) (hd : decode w = .illegal why)
      (ht : acceptIllegal w s.endTurn.nextStatement = .next t)

/-- The inversion of step. -/
theorem step_cases {s t : State} (h : step s = .next t) : StepCase s t := by
  unfold step at h
  cases hn : s.nextTurn with
  | reset =>
    rw [hn] at h
    cases h
    exact .reset hn rfl
  | engine =>
    rw [hn] at h
    have ht : t = s.endTurn.engineStep := by cases h; rfl
    unfold State.engineStep at ht
    rw [State.endTurn_pend] at ht
    cases hp : s.pend with
    | none =>
      rw [hp] at ht
      exact .engineIdle hn (by simp [hp]) ht
    | some p =>
      rw [hp] at ht
      change t = if s.completionEnabled p then _ else _ at ht
      cases he : s.completionEnabled p
      · rw [he] at ht
        exact .engineIdle hn (fun q hq => by cases hp.symm.trans hq; exact he) ht
      · rw [he] at ht
        exact .completed p hn hp he ht
  | host =>
    rw [hn] at h
    change hostTurn s.endTurn = _ at h
    unfold hostTurn at h
    rw [State.endTurn_prog] at h
    cases hp : s.prog with
    | nil =>
      rw [hp] at h
      cases h
      refine .wrote s.fmt s.prog hn ?_ rfl
      rintro w ⟨_, rest, hr⟩
      rw [hp] at hr; cases hr
    | cons op rest =>
      rw [hp] at h
      have hne : (∀ w, op ≠ .wr Reg.cmd.index w) → ∀ w, ¬ s.writesCommand w := by
        rintro hop w ⟨_, rest', hr⟩
        rw [hp] at hr
        cases hr
        exact hop w rfl
      cases op with
      | rd i =>
        cases h
        exact .read i s.prog.tail hn (hne (by simp)) (State.hostRead_withProg s.endTurn i s.prog.tail)
      | wait =>
        cases h
        refine .read Reg.status.index
          (if (s.endTurn.hostRead Reg.status.index).readData.getLsbD 0 then s.prog else s.prog.tail)
          hn (hne (by simp)) ?_
        unfold State.waitStep
        dsimp only
        split
        · rw [← State.endTurn_prog, ← State.hostRead_prog s.endTurn Reg.status.index]
        · simp [State.nextStatement]
      | drain =>
        cases h
        refine .read Reg.outData.index
          (if (s.endTurn.hostRead Reg.outData.index).readData.getLsbD 8 then s.prog else s.prog.tail)
          hn (hne (by simp)) ?_
        unfold State.drainStep
        dsimp only
        split
        · rw [← State.endTurn_prog, ← State.hostRead_prog s.endTurn Reg.outData.index]
        · simp [State.nextStatement]
      | wr i v =>
        change s.endTurn.nextStatement.hostWrite i v = _ at h
        by_cases hi : i = Reg.cmd.index
        · subst hi
          have hw : s.writesCommand v := ⟨hn, rest, hp⟩
          rw [State.hostWrite_cmd] at h
          unfold acceptWord at h
          cases hd : decode v with
          | command j =>
            rw [hd] at h
            exact .command v j hw hd (exec_cases h)
          | illegal why =>
            rw [hd] at h
            exact .illegal v why hw hd h
        · obtain ⟨f, hf⟩ := s.endTurn.nextStatement.hostWrite_of_ne v hi
          rw [hf] at h
          cases h
          refine .wrote f s.prog.tail hn (hne ?_) rfl
          rintro w e
          cases e
          exact hi rfl

/-- A property that the block's every action keeps, whoever acts, is kept by every step: one premise per action. -/
theorem step_keeps {P : State → Prop}
    (hclear : ∀ s : State, P s.clear) (hreset : ∀ s : State, P s.applyReset)
    (hraise : ∀ (s : State) e w, e ≠ .none → P s → P (s.raise e w))
    (hend : ∀ s : State, P s → P s.endTurn) (hnext : ∀ s : State, P s → P s.nextStatement)
    (hread : ∀ (s : State) i prog, P s → P { s.hostRead i with prog := prog })
    (hwrote : ∀ (s : State) f prog, P s → P { s with fmt := f, prog := prog })
    (hcount : ∀ (s : State) a, P s → s.busy = false → s.phase = .count → countPrecheck a s = none → P (s.countArg a))
    (hres : ∀ (s : State) ws, P s → P (s.setRes ws))
    (hdefer : ∀ (s : State) op a, P s → s.busy = false → pendingLegal op s.phase = true →
      precheckOf (op.instr a) s = none → P (s.defer op a))
    (hcomp : ∀ (s : State) p, P s → s.pend = some p → s.completionEnabled p = true → P (s.complete p)) :
    ∀ s t, P s → step s = .next t → P t := by
  intro s t hs h
  cases step_cases h with
  | reset hn ht => subst ht; exact hreset _
  | engineIdle hn hq ht => subst ht; exact hend _ hs
  | completed p hn hq he ht => subst ht; exact hcomp _ _ (hend _ hs) hq he
  | read i prog hn hc ht => subst ht; exact hread _ _ _ (hend _ hs)
  | wrote f prog hn hc ht => subst ht; exact hwrote _ _ _ (hend _ hs)
  | command w i hw hd ht =>
    have hs' := hnext _ (hend _ hs)
    cases ht with
    | cleared hi ht => subst ht; exact hclear _
    | raised e he hq ht => subst ht; exact hraise _ _ _ he hs'
    | noEffect hb ht => subst ht; exact hs'
    | counted a hi hb hq hc ht => subst ht; exact hcount _ _ hs' hb hq hc
    | readout ws hi hb ht => subst ht; exact hres _ _ hs'
    | deferred op a hb hq hi hc ht => subst ht; exact hdefer _ _ _ hs' hb hq (hi ▸ hc)
  | illegal w why hw hd ht =>
    have hs' := hnext _ (hend _ hs)
    rcases acceptIllegal_cases ht with ⟨hq, ht⟩ | ⟨_, hq, ht⟩ | ⟨_, hq, ht⟩ <;> subst ht
    · exact hraise _ _ _ (by simp) hs'
    · exact hs'
    · exact hraise _ _ _ (by simp) hs'

end Sys2Proof.Machine
end

