-- ==== Sys2Proof/Laws/Tree.lean ====
section
/-!
SUPPORT. The order of the working list, insertion into it and the merge loop (spec/42_tree_builder.md rule R97), and
the walk over the tree (spec/43_code_generator.md rule R105).
-/

namespace Sys2Proof.Machine

/-! ## Keys (R97) -/

theorem QueueItem.keyLt_iff {a b : QueueItem} :
    a.keyLt b = true ↔ a.weight < b.weight ∨ (a.weight = b.weight ∧ a.index.toNat < b.index.toNat) := by
  simp [QueueItem.keyLt]

theorem QueueItem.keyLt_irrefl (a : QueueItem) : a.keyLt a = false := by
  simp [QueueItem.keyLt]

theorem QueueItem.keyLt_trans {a b c : QueueItem} (h : a.keyLt b = true) (h' : b.keyLt c = true) :
    a.keyLt c = true := by
  rw [QueueItem.keyLt_iff] at *
  omega

/-- No two nodes share a key: of two nodes with different indices one comes first. -/
theorem QueueItem.keyLt_of_not {a b : QueueItem} (h : a.keyLt b = false) (hne : a.index ≠ b.index) :
    b.keyLt a = true := by
  have hi : a.index.toNat ≠ b.index.toNat := fun e => hne (BitVec.eq_of_toNat_eq e)
  rw [Bool.eq_false_iff, ne_eq, QueueItem.keyLt_iff] at h
  rw [QueueItem.keyLt_iff]
  omega

/-! ## Insertion (R13) -/

@[simp] theorem insertByKey_nil (x : QueueItem) : insertByKey x [] = [x] := rfl

theorem insertByKey_cons (x y : QueueItem) (ys : List QueueItem) :
    insertByKey x (y :: ys) = if x.keyLt y then x :: y :: ys else y :: insertByKey x ys := rfl

/-- Insertion adds its node and keeps the others. -/
theorem insertByKey_perm (x : QueueItem) (q : List QueueItem) : (insertByKey x q).Perm (x :: q) := by
  induction q with
  | nil => exact .refl _
  | cons y ys ih =>
    rw [insertByKey_cons]
    split
    · exact .refl _
    · exact (List.Perm.cons y ih).trans (.swap x y ys)

@[simp] theorem length_insertByKey (x : QueueItem) (q : List QueueItem) :
    (insertByKey x q).length = q.length + 1 := (insertByKey_perm x q).length_eq

/-! ## The merge loop (R97) -/

theorem mergeLoop_zero (k : Nat) (q : List QueueItem) : mergeLoop 0 k q = ([], q) := rfl

theorem mergeLoop_nil (fuel k : Nat) : mergeLoop fuel k [] = ([], []) := by cases fuel <;> rfl

/-- "while |Q| > 1": the loop ends with one node left. -/
theorem mergeLoop_one (fuel k : Nat) (x : QueueItem) : mergeLoop fuel k [x] = ([], [x]) := by cases fuel <;> rfl

/-- One merge: the first node removed is the left child, the second the right, and the new node is inserted. -/
theorem mergeLoop_cons (fuel k : Nat) (a b : QueueItem) (rest : List QueueItem) :
    mergeLoop (fuel + 1) k (a :: b :: rest) =
      ({ weight := BitVec.ofNat 32 (a.weight + b.weight), left := a.index, right := b.index } ::
        (mergeLoop fuel (k + 1)
          (insertByKey { weight := a.weight + b.weight, index := internalIndex k } rest)).1,
       (mergeLoop fuel (k + 1)
          (insertByKey { weight := a.weight + b.weight, index := internalIndex k } rest)).2) := rfl

/-- A merge loop with fuel enough makes one node fewer than the list has, and leaves one. -/
theorem mergeLoop_length (fuel : Nat) : ∀ (k : Nat) (q : List QueueItem), q.length ≤ fuel + 1 → q ≠ [] →
    (mergeLoop fuel k q).1.length + 1 = q.length ∧ (mergeLoop fuel k q).2.length = 1 := by
  induction fuel with
  | zero =>
    intro k q hq hne
    match q with
    | [] => exact absurd rfl hne
    | [x] => exact ⟨rfl, rfl⟩
    | _ :: _ :: _ => simp at hq
  | succ fuel ih =>
    intro k q hq hne
    match q with
    | [] => exact absurd rfl hne
    | [x] => rw [mergeLoop_one]; exact ⟨rfl, rfl⟩
    | a :: b :: rest =>
      rw [mergeLoop_cons]
      have := ih (k + 1) (insertByKey { weight := a.weight + b.weight, index := internalIndex k } rest)
        (by simp at hq ⊢; omega) (fun e => by
          have := congrArg List.length e
          simp at this)
      simp at this ⊢
      exact ⟨by omega, this.2⟩

/-! ## The walk (R105) -/

theorem State.walk_zero (s : State) (n : NodeIndex) (p : List Bool) : s.walk 0 n p = [] := rfl

/-- At a leaf the walk assigns the path. -/
theorem State.walk_leaf (s : State) (fuel : Nat) (y : Symbol) (p : List Bool) :
    s.walk (fuel + 1) (leafIndex y) p = [(y, p)] := by
  simp [State.walk]

/-- At an internal node the walk goes left with 0 and right with 1. -/
theorem State.walk_internal (s : State) (fuel : Nat) (k : Fin 255) (p : List Bool) :
    s.walk (fuel + 1) (internalIndex k.val) p =
      s.walk fuel s.node[k].left (p ++ [false]) ++ s.walk fuel s.node[k].right (p ++ [true]) := by
  simp only [State.walk, argSymbol_internalIndex (by omega : k.val < 256), State.nodeAt_internalIndex]

/-- The walk reads NODE and nothing else. -/
theorem State.walk_congr {s t : State} (h : t.node = s.node) (fuel : Nat) :
    ∀ (n : NodeIndex) (p : List Bool), t.walk fuel n p = s.walk fuel n p := by
  induction fuel with
  | zero => intro n p; rfl
  | succ fuel ih =>
    intro n p
    simp only [State.walk, State.nodeAt, h, ih]

/-- The assignments are a function of NODE and ROOT. -/
theorem State.assignments_congr {s t : State} (h : t.node = s.node) (hr : t.root = s.root) :
    t.assignments = s.assignments := by
  simp only [State.assignments, hr, State.walk_congr h]

/-- GENCODES leaves the tree, so the assignments stay. -/
theorem State.assignments_completeGencodes (s : State) : s.completeGencodes.assignments = s.assignments :=
  State.assignments_congr rfl rfl

/-- BUILD reads FREQ and nothing else (R100). -/
theorem State.buildTree_congr {s t : State} (h : t.freq = s.freq) : t.buildTree = s.buildTree := by
  have hf : ∀ y, t.freqAt y = s.freqAt y := fun y => by simp only [State.freqAt, h]
  have hl : t.leaves = s.leaves := by
    unfold State.leaves
    exact congrArg (fun f => allSymbols.filterMap f) (funext fun y => by rw [hf])
  simp only [State.buildTree, State.initialQueue, hl]

end Sys2Proof.Machine
end

