-- ==== Sys2Proof/Laws/Safety.lean ====
section
/-!
SUPPORT. The words of Safety: the invariants do not read the host's side of the port, and what a derivation of PassTwo
says (spec/44_encoder.md rules R110 and R122).
-/

namespace Sys2Proof.Machine

/-! ## The invariants and the host's side -/

/-- The invariants read neither the host's listing, the turns, the value last read nor CTRL. -/
theorem Inv.withHost {s : State} (h : Inv s) (prog : List HostOp) (turns : List Turn) (v : Word) (f : Format) :
    Inv { s with prog := prog, turns := turns, readData := v, fmt := f } where
  counts := ⟨h.counts.total, h.counts.nsym⟩
  phase := ⟨h.phase.tree, h.phase.codes, h.phase.codesNeedTree, h.phase.error, h.phase.errCmd, h.phase.pend⟩
  tree := ⟨h.tree.leaves, h.tree.nodes, h.tree.root, h.tree.noTree, h.tree.pend⟩
  codes :=
    { table := by
        intro hc y
        have e : State.assignments { s with prog := prog, turns := turns, readData := v, fmt := f } = s.assignments :=
          State.assignments_congr rfl rfl
        have ht := h.codes.table hc y
        rw [← e] at ht
        exact ht
      complete := h.codes.complete
      wsum := h.codes.wsum
      maxLen := h.codes.maxLen
      noCodes := h.codes.noCodes }
  encoder :=
    { bound := h.encoder.bound
      acc := h.encoder.acc
      level := h.encoder.level
      error := h.encoder.error
      textual := h.encoder.textual
      done := h.encoder.done
      before := fun e =>
        have b := h.encoder.before e
        ⟨b.encFmt, b.acc, b.accN, b.encN, b.outBits, b.fifo, b.outRead⟩
      pend := h.encoder.pend }
  output := ⟨h.output.encoding, h.output.packed, h.output.textual⟩

/-! ## Pass 2 -/

/-- A step of the host, or a reset, encodes nothing. -/
theorem State.encodedByStep_of_ne {s : State} (h : s.nextTurn ≠ .engine) : s.encodedByStep = [] := by
  unfold State.encodedByStep
  cases hn : s.nextTurn
  · rfl
  · exact absurd hn h
  · rfl

/-- An engine turn without a completion encodes nothing. -/
theorem State.encodedByStep_idle {s : State} (h : ∀ p, s.pend = some p → s.completionEnabled p = false) :
    s.encodedByStep = [] := by
  unfold State.encodedByStep
  cases s.nextTurn
  · rfl
  · cases hp : s.pend with
    | none => rfl
    | some p => simp [h p hp]
  · rfl

/-- The completion of an ENCODE encodes its argument; another completion encodes nothing. -/
theorem State.encodedByStep_completed {s : State} {p : Pending} (hn : s.nextTurn = .engine) (hp : s.pend = some p)
    (he : s.completionEnabled p = true) :
    s.encodedByStep = if p.op = .encode then [argLow p.arg] else [] := by
  simp [State.encodedByStep, hn, hp, he]

/-- Pass 2 stays in its phases. -/
theorem PassTwo.inPassTwo {s t : State} {ys : List Symbol} (h : PassTwo s ys t) : t.phase.inPassTwo = true := by
  cases h with
  | start h => rw [h]; rfl
  | next _ _ hr => exact hr

/-- What every step keeps, pass 2 keeps. -/
theorem PassTwo.keeps {P : State → Prop} (hk : ∀ a b, P a → step a = .next b → P b) {s t : State} {ys : List Symbol}
    (h : PassTwo s ys t) (hs : P s) : P t := by
  induction h with
  | start => exact hs
  | next _ h' _ ih => exact hk _ _ ih h'

end Sys2Proof.Machine
end

