-- ==== Sys2Proof/Tests/Slice0.lean ====
section
/-!
SUPPORT. Tests and witnesses. The expected values are the spec's own: the encoding tables and examples of
spec/30_encoding.md (rules R65, R68, R74) and the vectors of spec/95_test_vectors.md, named V-… in the comments.
-/

namespace Sys2Proof.Tests

open Sys2Proof Sys2Proof.Machine

set_option Elab.async false

/-! ## Well-formedness: an ill-formed term for each check (R68, R72) -/

/-- COUNT 'A' is legal. -/
theorem test_wellFormed_count :
    CommandFields.wellFormed { op := 0x10#8, arg := 0x41#9, rsv := 0#15 } = true := by decide

/-- A reserved opcode is refused (R68 (a)). -/
theorem test_opKnown_refuses :
    CommandFields.opKnown { op := 0x50#8, arg := 0#9, rsv := 0#15 } = false ∧
    CommandFields.wellFormed { op := 0x50#8, arg := 0#9, rsv := 0#15 } = false := by decide

/-- RSV ≠ 0 is refused (R68 (b)). -/
theorem test_rsvZero_refuses :
    CommandFields.rsvZero { op := 0x10#8, arg := 0x41#9, rsv := 1#15 } = false ∧
    CommandFields.wellFormed { op := 0x10#8, arg := 0x41#9, rsv := 1#15 } = false := by decide

/-- BUILD with ARG = 1 is refused (R68 (c)). -/
theorem test_argAllowed_refuses :
    CommandFields.argAllowed { op := 0x20#8, arg := 1#9, rsv := 0#15 } = false ∧
    CommandFields.wellFormed { op := 0x20#8, arg := 1#9, rsv := 0#15 } = false := by decide

/-- "An operand above 511 is an assembly error" (R72). -/
theorem test_operandFits_refuses : operandFits 511 = true ∧ operandFits 512 = false := by decide

/-! ## Decoding: words written out as RSV ++ ARG ++ OP from R63 and R65 -/

theorem test_decode_nop : decode (0#15 ++ 0#9 ++ 0x00#8) = .command .nop := by decide
theorem test_decode_clear : decode (0#15 ++ 0#9 ++ 0x01#8) = .command .clear := by decide
theorem test_decode_count : decode (0#15 ++ 0b001000001#9 ++ 0x10#8) = .command (.count 0x41#9) := by decide
theorem test_decode_count_300 : decode (0#15 ++ 0b100101100#9 ++ 0x10#8) = .command (.count 300#9) := by decide
theorem test_decode_readFreq : decode (0#15 ++ 0b001000010#9 ++ 0x11#8) = .command (.readFreq 0x42#9) := by decide
theorem test_decode_build : decode (0#15 ++ 0#9 ++ 0x20#8) = .command .build := by decide
theorem test_decode_readNode : decode (0#15 ++ 0b111111111#9 ++ 0x21#8) = .command (.readNode 511#9) := by decide
theorem test_decode_gencodes : decode (0#15 ++ 0#9 ++ 0x30#8) = .command .gencodes := by decide
theorem test_decode_readCode : decode (0#15 ++ 0b011111111#9 ++ 0x31#8) = .command (.readCode 0xFF#9) := by decide
theorem test_decode_encode : decode (0#15 ++ 0b001000010#9 ++ 0x40#8) = .command (.encode 0x42#9) := by decide
theorem test_decode_flush : decode (0#15 ++ 0#9 ++ 0x41#8) = .command .flush := by decide

/-- The illegal examples of R74, and NOP with ARG = 1 (V-P10). -/
theorem test_decode_illegal :
    decode 0x00000120#32 = .illegal .argumentNotZero ∧ decode 0x00024110#32 = .illegal .reservedField ∧
    decode 0x00000050#32 = .illegal .reservedOpcode ∧ decode 0x00000100#32 = .illegal .argumentNotZero := by decide

/-- The encoder gives R74's words. -/
theorem test_encodeWord :
    encodeWord (.count 0x41#9) = 0x00004110#32 ∧ encodeWord (.readNode 511#9) = 0x0001FF21#32 ∧
    encodeWord (.encode 0x42#9) = 0x00004240#32 ∧ encodeWord .flush = 0x00000041#32 := by decide

/-- The host's numbering of an instruction's bits. -/
theorem test_decodeTableWord :
    decodeTableWord 32 0x4110 = some (.count 0x41#9) ∧ decodeTableWord 32 0x50 = none := by decide

/-! ## The listing (R72, R73) -/

/-- A line of P1 and a line of P3. -/
theorem test_assembleLine :
    assembleLine ['c', 'o', 'u', 'n', 't', ' ', '\'', 'A', '\'', ' ', ';', ' ', 'x'] =
      some [.wr 2#6 0x00004110#32] ∧
    assembleLine ['W', 'R', ' ', 'C', 'T', 'R', 'L', ',', ' ', '1'] = some [.wr 1#6 1#32] := by decide +kernel

/-- "An operand above 511 is an assembly error" (R72). -/
theorem test_assembleLine_refuses : assembleLine ['C', 'O', 'U', 'N', 'T', ' ', '5', '1', '2'] = none := by
  decide +kernel

/-! ## States: reset with some counts, and what BUILD and GENCODES make of them -/

/-- Pass 1 finished: the given symbols with the given counts. -/
def counted (fs : List (Symbol × Word)) : State :=
  fs.foldr (fun f s => { s.setFreq f.1 f.2 with total := s.total + f.2, nsym := s.nsym + 1#9 }) State.reset

/-- The tree of the counts. -/
def built (fs : List (Symbol × Word)) : State := (counted fs).completeBuild

/-- The code table of the counts. -/
def coded (fs : List (Symbol × Word)) : State := (built fs).completeGencodes

/-- CODED with the given code table, written in directly. -/
def tabled (cs : List (Symbol × List Bool)) : State :=
  cs.foldl (fun s c => { s with len := s.len.set c.1.toNat (BitVec.ofNat 8 c.2.length) c.1.isLt
                                code := s.code.set c.1.toNat c.2 c.1.isLt })
    { State.reset with treeV := true, codesV := true, phase := .coded, nsym := 2#9 }

/-- The codes of "AB", V-C1. -/
def abCodes : List (Symbol × List Bool) := [(0x41#8, [false]), (0x42#8, [true])]

/-- The codes of "ABRACADABRA", V-C2. -/
def abraCodes : List (Symbol × List Bool) :=
  [(0x41#8, [false]), (0x43#8, [true, false, false]), (0x44#8, [true, false, true]), (0x42#8, [true, true, false]),
   (0x52#8, [true, true, true])]

/-- "AB", V-S1. -/
def ab : List (Symbol × Word) := [(0x41#8, 1#32), (0x42#8, 1#32)]

/-- "ABRACADABRA", V-T2. -/
def abra : List (Symbol × Word) :=
  [(0x41#8, 5#32), (0x42#8, 2#32), (0x52#8, 2#32), (0x43#8, 1#32), (0x44#8, 1#32)]

/-- "ABCC", V-T3. -/
def abcc : List (Symbol × Word) := [(0x41#8, 1#32), (0x42#8, 1#32), (0x43#8, 2#32)]

/-- 1000 × 'A', V-S2. -/
def single : List (Symbol × Word) := [(0x41#8, 1000#32)]

/-- TOTAL = 2^32 − 1, all on 'A', V-H8. -/
def full : List (Symbol × Word) := [(0x41#8, maxWord)]

/-- What a check says of the answer of a meaning. -/
def answers (r : Result) (p : State → Bool) : Bool :=
  match r with
  | .next t => p t
  | .fault _ => false
  | .refused _ => false

/-- A state with a command pending. -/
def pending (op : DeferredOp) (a : Arg) (s : State) : State := s.defer op a

/-- The count of a symbol in a list of counts. -/
def countIn (fs : List (Symbol × Word)) (y : Symbol) : Word := (fs.lookup y).getD 0#32

theorem freqAt_counted (fs : List (Symbol × Word)) (y : Symbol) : (counted fs).freqAt y = countIn fs y := by
  induction fs with
  | nil => simp [counted, countIn, State.freqAt, State.reset]
  | cons f fs ih =>
    have e : (counted (f :: fs)).freqAt y = ((counted fs).setFreq f.1 f.2).freqAt y := rfl
    rw [e, State.freqAt_setFreq, ih]
    by_cases h : y = f.1
    · subst h; simp [countIn, List.lookup]
    · have hb : (y == f.1) = false := beq_eq_false_iff_ne.2 h
      simp [countIn, List.lookup, h, hb]

/-- The working list the counts give. -/
def queueOf (fs : List (Symbol × Word)) : List QueueItem :=
  (allSymbols.filterMap fun y =>
    if countIn fs y = 0#32 then none
    else some { weight := (countIn fs y).toNat, index := leafIndex y }).foldr insertByKey []

/-- The merges of that list. -/
def treeOf (fs : List (Symbol × Word)) : List NodeEntry × List QueueItem :=
  mergeLoop (queueOf fs).length 0 (queueOf fs)

theorem buildTree_counted (fs : List (Symbol × Word)) : (counted fs).buildTree = treeOf fs := by
  simp only [State.buildTree, State.initialQueue, State.leaves, freqAt_counted, treeOf, queueOf]

/-- `built` with its tree computed from the counts' list: the same state, evaluated faster. -/
theorem built_eq (fs : List (Symbol × Word)) :
    built fs = { counted fs with
      node := nodesFrom (counted fs).free (treeOf fs).1
      root := rootOf (counted fs).root (treeOf fs).2
      treeV := true, phase := .built, pend := none, free := (counted fs).free + 1 } := by
  rw [← buildTree_counted]; rfl

/-! ## Commands, one step each -/

/-- V-P9: NOP in ERROR leaves ERR. -/
theorem test_nop_in_error :
    answers (execNop (State.reset.raise .sequence 0x41#32)) (fun t => t.regValue .err == 3#32 &&
      t.statusWord == 0x0000001E#32) = true := by decide +kernel

/-- V-P12: CLEAR abandons a pending BUILD. -/
theorem test_clear_while_busy :
    answers (execClear (pending .build 0#9 (counted ab))) (fun t => t.statusWord == 0#32 && t.total == 0#32 &&
      t.treeV == false) = true := by decide +kernel

/-- V-P11: CLEAR keeps CTRL. -/
theorem test_clear_keeps_ctrl :
    answers (execClear { tabled abCodes with fmt := .textual }) (fun t => t.regValue .ctrl == 1#32 &&
      t.regValue .root == 0#32) = true := by decide +kernel

/-- V-H1: the third COUNT, of 'A' again. -/
theorem test_count_again :
    answers (execCount 0x41#9 (counted ab)) (fun t => t.freqAt 0x41#8 == 2#32 && t.freqAt 0x42#8 == 1#32 &&
      t.total == 3#32 && t.nsym == 2#9) = true := by decide +kernel

/-- V-H8: COUNT at the bound. -/
theorem test_count_overflow :
    answers (execCount 0x41#9 (counted full)) (fun t => t.regValue .err == 6#32 &&
      t.regValue .errCmd == 0x00004110#32 && t.statusWord == 0x0000001E#32 && t.total == maxWord) = true := by
  decide +kernel

/-- V-H2: READ_FREQ 'A'. -/
theorem test_readFreq :
    answers (execReadFreq 0x41#9 (counted [(0x41#8, 2#32), (0x42#8, 1#32)])) (fun t => t.regValue (.res 0) == 2#32 &&
      t.regValue (.res 8) == 0#32) = true := by decide +kernel

/-- V-H5: READ_FREQ 300. -/
theorem test_readFreq_300 :
    answers (execReadFreq 300#9 (counted ab)) (fun t => t.regValue (.res 0) == 0#32) = true := by decide +kernel

/-- V-P13: BUILD accepted, before its completion. -/
theorem test_build_accepted :
    answers (execBuild (counted ab)) (fun t => t.statusWord == 0x00000001#32 && t.regValue .root == 0#32) = true := by
  decide +kernel

/-- V-S3: BUILD of an empty input. -/
theorem test_build_empty :
    answers (execBuild State.reset) (fun t => t.statusWord == 0x0000001E#32 && t.regValue .err == 1#32 &&
      t.regValue .errCmd == 0x00000020#32) = true := by decide +kernel

/-- V-T12: READ_NODE 256 of the "AB" tree. -/
theorem test_readNode_root :
    answers (execReadNode 256#9 (built ab)) (fun t => t.regValue (.res 0) == 0xE0000100#32 &&
      t.regValue (.res 1) == 2#32 && t.regValue (.res 2) == 0x41#32 && t.regValue (.res 3) == 0x42#32) = true := by
  rw [built_eq]; decide +kernel

/-- V-T15: READ_NODE 258 of the "ABRACADABRA" tree. -/
theorem test_readNode_258 :
    answers (execReadNode 258#9 (built abra)) (fun t => t.regValue (.res 0) == 0xC0000102#32 &&
      t.regValue (.res 1) == 6#32 && t.regValue (.res 2) == 0x100#32 && t.regValue (.res 3) == 0x101#32) = true := by
  rw [built_eq]; decide +kernel

/-- V-C12: GENCODES after reset. -/
theorem test_gencodes_sequence :
    answers (execGencodes State.reset) (fun t => t.regValue .err == 3#32 && t.regValue .errCmd == 0x30#32) = true := by
  decide +kernel

/-- GENCODES is accepted in BUILT: BUSY and PHASE = BUILT (R81). -/
theorem test_gencodes_accepted :
    answers (execGencodes (built ab)) (fun t => t.statusWord == 0x00000003#32) = true := by decide +kernel

/-- V-C16: READ_CODE 'D' of "ABRACADABRA". -/
theorem test_readCode_d :
    answers (execReadCode 0x44#9 (tabled abraCodes)) (fun t => t.regValue (.res 0) == 0x80000003#32 &&
      t.regValue (.res 1) == 0xA0000000#32) = true := by decide +kernel

/-- V-C18: READ_CODE 'Z' of "ABRACADABRA". -/
theorem test_readCode_z :
    answers (execReadCode 0x5A#9 (tabled abraCodes)) (fun t => t.regValue (.res 0) == 0#32) = true := by decide +kernel

/-- V-E11: ENCODE 'C' with the "AB" table. -/
theorem test_encode_unknown :
    answers (execEncode 0x43#9 (tabled abCodes)) (fun t => t.regValue .err == 2#32 &&
      t.regValue .errCmd == 0x00004340#32 && t.statusWord == 0x0000001E#32) = true := by decide +kernel

/-- V-E13: ENCODE 'C' in BUILT. -/
theorem test_encode_sequence :
    answers (execEncode 0x43#9 (built ab)) (fun t => t.regValue .err == 3#32) = true := by decide +kernel

/-- V-E17: FLUSH in DONE. -/
theorem test_flush_sequence :
    answers (execFlush { tabled abCodes with phase := .done }) (fun t => t.regValue .err == 3#32 &&
      t.regValue .errCmd == 0x41#32) = true := by decide +kernel

/-- FLUSH is accepted in CODED: BUSY and PHASE = CODED (R81). -/
theorem test_flush_accepted :
    answers (execFlush (tabled abCodes)) (fun t => t.busy && t.phase == .coded) = true := by decide +kernel

/-! ## Completion steps -/

/-- V-T3: 'C' is removed before the merged node of equal weight. -/
theorem test_build_tie :
    (built abcc).regValue .root = 0x80000101#32 ∧
    (built abcc).nodeAt 257#9 = some { weight := 4#32, left := 0x43#9, right := 256#9 } := by
  rw [built_eq]; decide +kernel

/-- V-T9: a single leaf. -/
theorem test_build_single :
    (built single).regValue .root = 0x80000041#32 ∧ (built single).statusWord = 0x00000022#32 := by
  rw [built_eq]; decide +kernel

/-- V-C2: the codes of "ABRACADABRA". -/
theorem test_assignments_abra : (built abra).assignments = abraCodes := by rw [built_eq]; decide +kernel

/-- V-C2: WSUM and MAXLEN of "ABRACADABRA". -/
theorem test_finishCodes_abra :
    { tabled abraCodes with freq := (counted abra).freq }.finishCodes.wsum = 23#64 ∧
    { tabled abraCodes with freq := (counted abra).freq }.finishCodes.maxLen = 3#8 := by decide +kernel

/-- V-C9: the single leaf's code. -/
theorem test_assignments_single : (built single).assignments = [(0x41#8, [false])] := by rw [built_eq]; decide +kernel

/-- V-E1: ENCODE 'A' and then 'B' in packed form. -/
theorem test_encode_packed :
    (((tabled abCodes).completeEncode { op := .encode, arg := 0x41#9, fmt := .packed }).completeEncode
      { op := .encode, arg := 0x42#9, fmt := .packed }).regValue .status = 0x00000206#32 := by decide +kernel

/-- V-E1: ENCODE 'B' in textual form. -/
theorem test_encode_textual :
    ((tabled abCodes).completeEncode { op := .encode, arg := 0x42#9, fmt := .textual }).fifo = [0x31#8] := by decide +kernel

/-- V-E1: FLUSH pushes 0x40. -/
theorem test_flush_packed :
    ({ tabled abCodes with phase := .encoding, acc := 1#8, accN := 2#3 }.completeFlush
      { op := .flush, arg := 0#9, fmt := .packed }).fifo = [0x40#8] := by decide +kernel

/-- V-E16: FLUSH with nothing encoded, CTRL = 1. -/
theorem test_flush_latches :
    ((tabled abCodes).completeFlush { op := .flush, arg := 0#9, fmt := .textual }).statusWord = 0x00000048#32 := by
  decide +kernel

/-- The eighth bit pushes a byte: step 4 of "ABRACADABRA", 6E. -/
theorem test_emitBit_eighth :
    ({ tabled abraCodes with acc := 0x37#8, accN := 7#3 }.emitBit false).fifo = [0x6E#8] := by decide +kernel

/-! ## Host accesses -/

/-- V-P1 and V-P2. -/
theorem test_reset_reads :
    State.reset.readValue 0#6 = 0x48554631#32 ∧ State.reset.readValue 3#6 = 0#32 ∧
    State.reset.readValue 7#6 = 0#32 := by decide +kernel

/-- V-P3: WR CTRL, 0xFFFFFFFF. -/
theorem test_write_ctrl :
    answers (State.reset.hostWrite 1#6 0xFFFFFFFF#32) (fun t => t.readValue 1#6 == 1#32) = true := by decide +kernel

/-- V-E24: the byte 0x30 read from OUT_DATA. -/
theorem test_read_outData :
    ({ State.reset with fifo := [0x30#8, 0x31#8] }.hostRead 16#6).readData = 0x00000130#32 ∧
    ({ State.reset with fifo := [0x30#8, 0x31#8] }.hostRead 16#6).fifo = [0x31#8] := by decide +kernel

/-- V-X6: CLEAR's OP with RSV set, while BUSY = 1. -/
theorem test_illegal_while_busy :
    answers (acceptWord 0x00020001#32 (pending .build 0#9 (counted ab))) (fun t => t.regValue .err == 5#32 &&
      t.regValue .errCmd == 0x00020001#32) = true := by decide +kernel

/-- The step runs a placed command as the first one after reset. -/
theorem test_step_withFetchWord :
    answers (step (State.reset.withFetchWord 32 0x4110)) (fun t => t.total == 1#32 && t.nsym == 1#9) = true := by
  decide +kernel

/-- V-R3: the engine's turn completes the BUILD. -/
theorem test_step_engine :
    answers (step { pending .build 0#9 (counted ab) with turns := [.engine] }) (fun t =>
      t.regValue .root == 0x80000100#32 && t.statusWord == 0x00000002#32) = true := by
  have e : step { pending .build 0#9 (counted ab) with turns := [.engine] } = .next (built ab) := rfl
  rw [e, built_eq]; decide +kernel

/-- V-R1: reset, with CTRL = 1. -/
theorem test_step_reset :
    answers (step { tabled abCodes with fmt := .textual, turns := [.reset] }) (fun t => t.regValue .ctrl == 0#32 &&
      t.statusWord == 0#32 && t.total == 0#32) = true := by decide +kernel

/-- V-E25: decoding the first 23 bits of the packed output of "ABRACADABRA", one byte of it read by the host. -/
theorem test_decodeOutput :
    { built abra with outRead := [0x6E#8], fifo := [0x8A#8, 0xDC#8], outBits := 23#64 }.decodeOutput =
      [0x41#8, 0x42#8, 0x52#8, 0x41#8, 0x43#8, 0x41#8, 0x44#8, 0x41#8, 0x42#8, 0x52#8, 0x41#8] := by
  rw [built_eq]; decide +kernel

/-- V-E9: ratio 0.125 and 87.5 % for "AB". -/
theorem test_report :
    ({ tabled abCodes with encN := 2#32, outBits := 2#64 }).compressionRatio = some (1 / 8) ∧
    ({ tabled abCodes with wsum := 2#64, total := 2#32 }).compressionPercentage = some (175 / 2) := by decide +kernel

/-! ## Witnesses: states and operands that meet the hypotheses of each obligation, clause by clause -/

/-- A state in ERROR, with UNKNOWN_SYMBOL recorded (V-X7). -/
def failed : State := (tabled abCodes).raise .unknownSymbol 0x00004340#32

/-- "AB" in ENCODING, one code bit in the accumulator. -/
def encoding : State := (tabled abCodes).completeEncode { op := .encode, arg := 0x41#9, fmt := .packed }

/-- More bytes than any D_OUT in the FIFO, and an ENCODE that needs one more byte. -/
def overfull : State :=
  { tabled abCodes with phase := .encoding, encFmt := .textual, fifo := List.replicate 4096 0x30#8,
                        pend := some { op := .encode, arg := 0x41#9, fmt := .textual }, turns := [.engine] }

theorem illegal_50 : ¬ ∃ i, decode 0x00000050#32 = .command i := by
  rintro ⟨i, h⟩
  have e : decode 0x00000050#32 = .illegal .reservedOpcode := by decide
  rw [e] at h
  cases h

theorem witness_LegalWordsAndIllegalCmd :
    State.reset.busy = false ∧ State.reset.phase ≠ .error ∧ ¬ ∃ i, decode 0x00000050#32 = .command i :=
  ⟨by decide, by decide, illegal_50⟩

theorem witness_OneTableRowMatches :
    decode 0x0001FF10#32 = .command (.count 511#9) ∧ decode 0x00020000#32 = .illegal .reservedField := by decide

theorem witness_StepRunsDecodedCommand :
    (State.reset.withCommand 0x00004110#32).nextTurn = .host ∧
    (State.reset.withCommand 0x00004110#32).prog = .wr Reg.cmd.index 0x00004110#32 :: [] ∧
    decode 0x00004110#32 = .command (.count 0x41#9) := by decide

theorem witness_StepRunsDecodedCommand_illegal :
    (State.reset.withCommand 0x00000050#32).nextTurn = .host ∧
    (State.reset.withCommand 0x00000050#32).prog = .wr Reg.cmd.index 0x00000050#32 :: [] ∧
    decode 0x00000050#32 = .illegal .reservedOpcode := by decide

theorem witness_EngineTurn_idle :
    { State.reset with turns := [.engine] }.nextTurn = .engine ∧
    { State.reset with turns := [.engine] }.busy = false := by decide

theorem overfull_held : overfull.completionEnabled { op := .encode, arg := 0x41#9, fmt := .textual } = false := by
  have h := Config.dOut_le
  have hn : overfull.bytesNeeded { op := .encode, arg := 0x41#9, fmt := .textual } = 1 := by decide +kernel
  have hl : overfull.outLevel = 4096 := List.length_replicate
  simp only [State.completionEnabled, State.hasRoom, hn, hl]
  exact decide_eq_false (by omega)

theorem witness_EngineTurn_held :
    overfull.nextTurn = .engine ∧ overfull.pend = some { op := .encode, arg := 0x41#9, fmt := .textual } ∧
    overfull.completionEnabled { op := .encode, arg := 0x41#9, fmt := .textual } = false :=
  ⟨rfl, rfl, overfull_held⟩

theorem witness_EngineTurn_completes :
    { pending .build 0#9 (counted ab) with turns := [.engine] }.nextTurn = .engine ∧
    (pending .build 0#9 (counted ab)).pend = some { op := .build, arg := 0#9, fmt := .packed } ∧
    (pending .build 0#9 (counted ab)).completionEnabled { op := .build, arg := 0#9, fmt := .packed } = true :=
  ⟨rfl, rfl, rfl⟩

theorem witness_ResetValues : { failed with turns := [.reset] }.nextTurn = .reset := rfl

theorem witness_CommandWhileBusy :
    (pending .build 0#9 (counted ab)).busy = true ∧ decode 0x00020001#32 ≠ .command .clear ∧
    decode 0x00000001#32 = .command .clear := by decide

theorem witness_OutOfPhaseRaisesSequence :
    State.reset.busy = false ∧ State.reset.phase ≠ .error ∧ State.reset.phase ≠ .built ∧
    State.reset.phase ≠ .coded ∧ State.reset.phase ≠ .encoding := by decide

theorem witness_OutOfPhaseRaisesSequence_done :
    { State.reset with phase := .done }.busy = false ∧ { State.reset with phase := .done }.phase ≠ .error ∧
    { State.reset with phase := .done }.phase ≠ .count := by decide

theorem witness_FirstErrorIsReported :
    decode 0x00000020#32 ≠ .command .clear ∧ State.reset.errCode = .none ∧ State.reset.phase ≠ .error ∧
    firstError 0x00000020#32 State.reset = .emptyInput ∧ firstError 0x00004110#32 State.reset = .none := by
  decide +kernel

theorem witness_FirstErrorIsReported_error : failed.phase = .error ∧ failed.busy = false := ⟨rfl, rfl⟩

theorem witness_ErrorEntry : State.reset.errCode = .none ∧ failed.errCode ≠ .none := by decide

theorem witness_ErrorPhaseCommands :
    failed.phase = .error ∧ failed.busy = false ∧
    ∀ i, decode 0x00004110#32 = .command i → runsInError i = false := by
  refine ⟨rfl, rfl, fun i h => ?_⟩
  have e : decode 0x00004110#32 = .command (.count 0x41#9) := by decide
  rw [e] at h
  cases h
  rfl

/-- R125: the illegal word in ERROR, too. -/
theorem witness_ErrorPhaseCommands_illegal : ∀ i, decode 0x00000050#32 = .command i → runsInError i = false :=
  fun i h => absurd ⟨i, h⟩ illegal_50

theorem witness_OnlyClearAndResetLeaveError :
    failed.phase = .error ∧ failed.busy = false ∧ step failed = .next failed.endTurn := ⟨rfl, rfl, rfl⟩

theorem witness_OnlyClearAndResetLeaveError_clear :
    ∃ t, step (failed.withCommand 0x00000001#32) = .next t ∧ t.phase = .count := ⟨_, rfl, rfl⟩

theorem phaseAgrees_reset : PhaseAgrees State.reset := by
  constructor <;> simp [State.reset]

theorem witness_PhaseTransitions :
    PhaseAgrees State.reset ∧ ∃ t, step (State.reset.withCommand 0x00000050#32) = .next t ∧ t.phase = .error :=
  ⟨phaseAgrees_reset, _, rfl, rfl⟩

theorem witness_PhaseTransitions_build :
    PhaseAgrees { State.reset with pend := some { op := .build, arg := 0#9, fmt := .packed } } ∧
    ∃ t, step { State.reset with pend := some { op := .build, arg := 0#9, fmt := .packed } } = .next t ∧
      t.phase = .built := by
  refine ⟨?_, _, rfl, rfl⟩
  constructor <;> simp [State.reset, pendingLegal]

theorem witness_BusyTransitions :
    State.reset.busy = false ∧
    ∃ t, step ({ State.reset with phase := .built }.withCommand 0x00000030#32) = .next t ∧ t.busy = true :=
  ⟨rfl, _, rfl, rfl⟩

theorem witness_BusyTransitions_completes :
    (pending .gencodes 0#9 State.reset).busy = true ∧
    ∃ t, step (pending .gencodes 0#9 State.reset) = .next t ∧ t.busy = false := ⟨rfl, _, rfl, rfl⟩

theorem witness_NopHasNoEffect : failed.busy = false ∧ (pending .build 0#9 (counted ab)).busy = true := ⟨rfl, rfl⟩

/-- The last count below the bound, of the last symbol. -/
theorem witness_CountCountsASymbol :
    { State.reset with total := maxWord - 1#32 }.busy = false ∧
    { State.reset with total := maxWord - 1#32 }.phase = .count ∧ (255#9 : Arg).toNat ≤ 255 ∧
    { State.reset with total := maxWord - 1#32 }.total ≠ maxWord := by decide

theorem witness_CountCountsASymbol_not_counted :
    { State.reset with total := maxWord }.phase = .count ∧ 255 < (256#9 : Arg).toNat := by decide

theorem witness_CountCountsASymbol_overflow :
    { State.reset with total := maxWord }.busy = false ∧ { State.reset with total := maxWord }.phase = .count ∧
    (0#9 : Arg).toNat ≤ 255 ∧ { State.reset with total := maxWord }.total = maxWord := by decide

theorem witness_CountCountsASymbol_sequence :
    (built ab).busy = false ∧ (built ab).phase ≠ .count ∧ (built ab).phase ≠ .error := by
  refine ⟨rfl, ?_, ?_⟩ <;> simp [built]

theorem witness_ReadFreqGivesTheCount :
    failed.busy = false ∧ (255#9 : Arg).toNat ≤ 255 ∧ 255 < (256#9 : Arg).toNat := ⟨rfl, by decide, by decide⟩

theorem witness_CountOrderIsIrrelevant : [0x41#9, 0x42#9, 300#9].Perm [300#9, 0x41#9, 0x42#9] := by decide

theorem witness_OnlyCountWritesTheHistogram :
    ∃ t, step (State.reset.withCommand 0x00004110#32) = .next t ∧ t.total = 1#32 := ⟨_, rfl, rfl⟩

theorem witness_BuildBuildsTheTree :
    (counted ab).busy = false ∧ (counted ab).phase = .count ∧ (counted ab).nsym ≠ 0#9 ∧
    (counted ab).buildTree =
      ([{ weight := 2#32, left := 0x41#9, right := 0x42#9 }], [{ weight := 2, index := 256#9 }]) := by
  rw [buildTree_counted]; decide +kernel

theorem witness_BuildBuildsTheTree_empty :
    State.reset.busy = false ∧ State.reset.phase = .count ∧ State.reset.nsym = 0#9 := by decide

/-- V-T3's tie: a merged node of weight 2 is inserted beside the leaf 'C' of weight 2. -/
theorem witness_InsertGoesAfterEqualWeights :
    Ascending [{ weight := 2, index := 0x43#9 }, { weight := 3, index := 0x44#9 }] ∧
    ∀ y ∈ ([{ weight := 2, index := 0x43#9 }, { weight := 3, index := 0x44#9 }] : List QueueItem),
      y.index.toNat < (256#9 : NodeIndex).toNat := by
  refine ⟨?_, by decide⟩
  simp [Ascending, QueueItem.keyLt]

theorem countsAgree_ab : CountsAgree (counted ab) := by
  constructor
  · simp only [State.freqSum, freqAt_counted]; decide +kernel
  · simp only [State.countedSymbols, freqAt_counted]; decide +kernel

theorem witness_TreeShape :
    CountsAgree (counted ab) ∧ (counted ab).nsym ≠ 0#9 ∧ 2 ≤ (counted ab).nsym.toNat :=
  ⟨countsAgree_ab, by decide, by decide⟩

theorem witness_MergesTakeTheTwoLowest : CountsAgree (counted ab) ∧ (counted ab).nsym ≠ 0#9 :=
  ⟨countsAgree_ab, by decide⟩

theorem witness_SingleSymbolTree :
    CountsAgree (counted single) ∧ (counted single).countedSymbols = [0x41#8] ∧ (counted single).nsym = 1#9 :=
  ⟨⟨by simp only [State.freqSum, freqAt_counted]; decide +kernel,
      by simp only [State.countedSymbols, freqAt_counted]; decide +kernel⟩,
    by simp only [State.countedSymbols, freqAt_counted]; decide +kernel, by decide⟩

theorem witness_ReadNodeGivesTheNode_leaf :
    { counted [(255#8, 1#32)] with treeV := true }.busy = false ∧ (255#9 : Arg) = leafIndex 255#8 ∧
    { counted [(255#8, 1#32)] with treeV := true }.treeV = true ∧
    { counted [(255#8, 1#32)] with treeV := true }.freqAt 255#8 ≠ 0#32 := by decide +kernel

theorem witness_ReadNodeGivesTheNode_internal :
    (510#9 : Arg) = internalIndex (254 : Fin 255).val ∧
    { State.reset with treeV := true, nsym := 256#9 }.treeV = true ∧
    (254 : Fin 255).val + 1 < { State.reset with treeV := true, nsym := 256#9 }.nsym.toNat := by decide

theorem witness_ReadNodeGivesTheNode_zero :
    State.reset.treeV = false ∧ (0#9 : Arg) = leafIndex 0#8 ∧ State.reset.freqAt 0#8 = 0#32 ∧
    256 ≤ (256#9 : Arg).toNat ∧
    { State.reset with nsym := 1#9 }.nsym.toNat ≤ (256#9 : Arg).toNat - 256 + 1 := by decide +kernel

theorem witness_GencodesWritesTheTable : (built ab).busy = false ∧ (built ab).phase = .built := ⟨rfl, rfl⟩

/-- The assignments of "AB", V-C1. -/
theorem assignments_built : (built ab).assignments = abCodes := by rw [built_eq]; decide +kernel

theorem assignments_ab : (coded ab).assignments = abCodes :=
  (built ab).assignments_completeGencodes.trans assignments_built

theorem lenAt_ab (y : Symbol) : (coded ab).lenAt y = if y = 0x41#8 ∨ y = 0x42#8 then 1#8 else 0#8 := by
  have e : (coded ab).lenAt y = _ := State.completeGencodes_lenAt (built ab) y
  rw [e, State.lenAt_withCodes, assignments_built]
  by_cases h1 : y = 0x41#8
  · subst h1; rfl
  · by_cases h2 : y = 0x42#8
    · subst h2; rfl
    · have e1 : (y == 0x41#8) = false := beq_eq_false_iff_ne.2 h1
      have e2 : (y == 0x42#8) = false := beq_eq_false_iff_ne.2 h2
      have hn : assignedCode abCodes y = none := by simp [assignedCode, abCodes, List.lookup, e1, e2]
      simp [hn, h1, h2]

theorem freqAt_ab (y : Symbol) : (coded ab).freqAt y = if y = 0x41#8 ∨ y = 0x42#8 then 1#32 else 0#32 := by
  have e : (coded ab).freqAt y = countIn ab y :=
    ((built ab).completeGencodes_freqAt y).trans (freqAt_counted ab y)
  rw [e]
  revert y
  decide +kernel

theorem out_of_phase {s : State} (h : s.phase = .coded) : OutputAgrees s := by
  constructor <;> simp [h]

/-- Every invariant holds of "AB" in CODED. -/
theorem inv_ab : Inv (coded ab) where
  counts := ⟨countsAgree_ab.total, countsAgree_ab.nsym⟩
  phase := by
    constructor
    · exact rfl
    · exact rfl
    · exact fun _ => rfl
    · simp [coded, built]; decide
    · exact fun _ => rfl
    · simp [coded]
  tree := by
    constructor
    · exact fun _ => by decide
    · intro _ k hk
      have hk0 : k = 0 := by
        have h2 : (coded ab).nsym.toNat = 2 := by decide
        rw [h2] at hk
        exact Fin.ext (by simp; omega)
      subst hk0
      decide +kernel
    · exact fun _ => by decide +kernel
    · intro h; cases h
    · simp [coded]
  codes := by
    constructor
    · intro _ y
      rw [assignments_ab, lenAt_ab]
      have hc : (coded ab).codeAt y = (assignedCode abCodes y).getD (Config.freeCode (built ab).free y.toNat) := by
        have e : (coded ab).codeAt y = _ := State.completeGencodes_codeAt (built ab) y
        rw [e, State.codeAt_withCodes, assignments_built]
      by_cases h1 : y = 0x41#8
      · subst h1
        rw [hc]
        exact ⟨rfl, rfl, List.cons_ne_nil _ _⟩
      · by_cases h2 : y = 0x42#8
        · subst h2
          rw [hc]
          exact ⟨rfl, rfl, List.cons_ne_nil _ _⟩
        · have e1 : (y == 0x41#8) = false := beq_eq_false_iff_ne.2 h1
          have e2 : (y == 0x42#8) = false := beq_eq_false_iff_ne.2 h2
          have hn : assignedCode abCodes y = none := by simp [assignedCode, abCodes, List.lookup, e1, e2]
          rw [hn]
          simp [h1, h2]
    · intro _ y
      rw [lenAt_ab, freqAt_ab]
      split <;> decide
    · intro _
      have h : (coded ab).weightedLength = 2 := by
        unfold State.weightedLength
        simp only [lenAt_ab, freqAt_ab]
        decide +kernel
      have e : (coded ab).wsum = BitVec.ofNat 64 (coded ab).weightedLength := rfl
      rw [e, h]
      rfl
    · intro _
      have h : (coded ab).longestCode = 1 := by
        unfold State.longestCode
        simp only [lenAt_ab]
        decide +kernel
      have e : (coded ab).maxLen = BitVec.ofNat 8 (coded ab).longestCode := rfl
      rw [e, h]
      rfl
    · intro h; cases h
  encoder := by
    constructor
    · decide
    · decide
    · exact Nat.zero_le _
    · intro h; cases h
    · intro h; cases h
    · intro h; cases h
    · exact fun _ => ⟨rfl, rfl, rfl, rfl, rfl, rfl, rfl⟩
    · simp [coded]
  output := out_of_phase rfl

theorem witness_CodeIsThePathToTheLeaf :
    Inv (coded ab) ∧ (coded ab).codesV = true ∧ 2 ≤ (coded ab).nsym.toNat ∧ (coded ab).freqAt 0x42#8 ≠ 0#32 :=
  ⟨inv_ab, rfl, by decide, by rw [freqAt_ab]; decide⟩

theorem witness_CodesArePrefixFree :
    Inv (coded ab) ∧ (coded ab).codesV = true ∧ (0x41#8 : Symbol) ≠ 0x42#8 ∧ (coded ab).lenAt 0x41#8 ≠ 0#8 ∧
    (coded ab).lenAt 0x42#8 ≠ 0#8 :=
  ⟨inv_ab, rfl, by decide, by rw [lenAt_ab]; decide, by rw [lenAt_ab]; decide⟩

/-- A code of 255 bits, the longest there is. -/
theorem witness_ReadCodeGivesTheCode :
    (tabled [(255#8, List.replicate 255 true)]).busy = false ∧ (255#9 : Arg) = symbolArg 255#8 ∧
    (tabled [(255#8, List.replicate 255 true)]).codesV = true ∧
    (tabled [(255#8, List.replicate 255 true)]).lenAt 255#8 ≠ 0#8 := by decide +kernel

theorem witness_ReadCodeGivesTheCode_zero :
    State.reset.codesV = false ∧ 255 < (256#9 : Arg).toNat ∧ (0#9 : Arg) = symbolArg 0#8 ∧
    (tabled abCodes).lenAt 0#8 = 0#8 := by decide +kernel

theorem witness_OnlyCompletionsWriteTreeAndCodes :
    ∃ t, step (pending .build 0#9 (counted ab)) = .next t ∧ t.treeV = true := ⟨_, rfl, rfl⟩

theorem witness_OnlyCompletionsWriteTreeAndCodes_codes :
    ∃ t, step (pending .gencodes 0#9 (built ab)) = .next t ∧ t.codesV = true := ⟨_, rfl, rfl⟩

theorem hasRoom_of_empty {s : State} {p : Pending} (h : s.outLevel = 0) (hn : s.bytesNeeded p ≤ 255) :
    s.hasRoom p = true := by
  have hd := Config.le_dOut
  exact decide_eq_true (by omega)

theorem witness_EncodeEmitsTheCode :
    (tabled abCodes).busy = false ∧ (tabled abCodes).phase = .coded ∧ (0x41#9 : Arg).toNat ≤ 255 ∧
    (tabled abCodes).lenAt 0x41#8 ≠ 0#8 ∧ (tabled abCodes).encN ≠ maxWord ∧
    (pending .encode 0x41#9 (tabled abCodes)).hasRoom { op := .encode, arg := 0x41#9, fmt := .packed } = true :=
  ⟨rfl, rfl, by decide, by decide +kernel, by decide, hasRoom_of_empty rfl (by decide +kernel)⟩

theorem witness_EncodeErrors :
    (tabled abCodes).busy = false ∧ (tabled abCodes).phase = .coded ∧ 255 < (256#9 : Arg).toNat ∧
    (tabled abCodes).lenAt 0x43#8 = 0#8 := by decide +kernel

theorem witness_EncodeErrors_overflow :
    { tabled abCodes with encN := maxWord }.phase = .coded ∧ (0x41#9 : Arg).toNat ≤ 255 ∧
    { tabled abCodes with encN := maxWord }.lenAt 0x41#8 ≠ 0#8 ∧
    { tabled abCodes with encN := maxWord }.encN = maxWord := by decide +kernel

theorem witness_OnlyEncodeCountsSymbols :
    ∃ t, step { pending .encode 0x41#9 (tabled abCodes) with turns := [.engine] } = .next t := ⟨_, rfl⟩

theorem witness_FlushEndsPassTwo :
    (tabled abCodes).busy = false ∧ (tabled abCodes).phase = .coded ∧
    (pending .flush 0#9 (tabled abCodes)).hasRoom { op := .flush, arg := 0#9, fmt := .packed } = true ∧
    (tabled abCodes).accN = 0#3 := ⟨rfl, rfl, hasRoom_of_empty rfl (by decide +kernel), rfl⟩

theorem witness_FlushEndsPassTwo_pads :
    { tabled abCodes with phase := .encoding, acc := 1#8, accN := 2#3 }.busy = false ∧
    { tabled abCodes with phase := .encoding, acc := 1#8, accN := 2#3 }.phase = .encoding ∧
    { tabled abCodes with phase := .encoding, acc := 1#8, accN := 2#3 }.encFmt = .packed ∧
    { tabled abCodes with phase := .encoding, acc := 1#8, accN := 2#3 }.accN ≠ 0#3 := by decide

theorem witness_EmittedBitsAreAppended : { State.reset with encFmt := .textual }.encFmt = .textual := rfl

/-- Before pass 2 the encoder's invariant holds, with an ENCODE pending. -/
theorem encoderAgrees_pending : EncoderAgrees (pending .encode 0x41#9 (tabled abCodes)) where
  bound := by decide
  acc := by decide
  level := Nat.zero_le _
  error := fun h => by cases h
  textual := fun h => by cases h
  done := fun h => by cases h
  before := fun _ => ⟨rfl, rfl, rfl, rfl, rfl, rfl, rfl⟩
  pend := by
    intro p hp _
    cases hp
    exact ⟨by decide, by decide +kernel, by decide⟩

theorem witness_EncodeAppendsToTheStream :
    EncoderAgrees (pending .encode 0x41#9 (tabled abCodes)) ∧
    (pending .encode 0x41#9 (tabled abCodes)).phase = .coded ∧
    (pending .encode 0x41#9 (tabled abCodes)).pend = some { op := .encode, arg := 0x41#9, fmt := .packed } ∧
    (pending .encode 0x41#9 (tabled abCodes)).hasRoom { op := .encode, arg := 0x41#9, fmt := .packed } = true :=
  ⟨encoderAgrees_pending, rfl, rfl, hasRoom_of_empty rfl (by decide +kernel)⟩

theorem witness_NeedIsTheBytesPushed :
    ({ op := .encode, arg := 0x41#9, fmt := .packed } : Pending).op = .encode ∧
    (tabled abCodes).runFormat { op := .encode, arg := 0x41#9, fmt := .packed } = .packed ∧
    (tabled abCodes).outLevel = 0 := ⟨rfl, rfl, rfl⟩

theorem witness_HoldUntilTheHostReads :
    overfull.pend = some { op := .encode, arg := 0x41#9, fmt := .textual } ∧
    Config.dOut < overfull.outLevel + overfull.bytesNeeded { op := .encode, arg := 0x41#9, fmt := .textual } ∧
    0 < overfull.outLevel := by
  have h := Config.dOut_le
  have hl : overfull.outLevel = 4096 := List.length_replicate
  refine ⟨rfl, ?_, ?_⟩ <;> omega

theorem witness_HoldUntilTheHostReads_room :
    (pending .flush 0#9 (tabled abCodes)).outLevel +
      (pending .flush 0#9 (tabled abCodes)).bytesNeeded { op := .flush, arg := 0#9, fmt := .packed } ≤ Config.dOut :=
  Nat.zero_le _

theorem witness_FlushPadsTheLastByte :
    encoding.phase = .encoding ∧ encoding.encFmt = .packed ∧ overfull.phase = .encoding ∧
    overfull.encFmt = .textual := by
  refine ⟨?_, ?_, rfl, rfl⟩ <;> decide +kernel

theorem witness_FormatIsLatchedOnce :
    ∃ t, step { pending .flush 0#9 (tabled abCodes) with turns := [.engine] } = .next t := ⟨_, rfl⟩

theorem witness_FormatIsLatchedOnce_accepted :
    (tabled abCodes).busy = false ∧ exec .flush (tabled abCodes) = .next ((tabled abCodes).defer .flush 0#9) ∧
    ((tabled abCodes).defer .flush 0#9).pend = some { op := .flush, arg := 0#9, fmt := .packed } := ⟨rfl, rfl, rfl⟩

theorem witness_RoundTrip :
    Inv (coded ab) ∧ (coded ab).codesV = true ∧ ∀ y ∈ [0x41#8, 0x42#8, 0x41#8], (coded ab).lenAt y ≠ 0#8 := by
  refine ⟨inv_ab, rfl, ?_⟩
  simp only [lenAt_ab]
  decide

/-! ### A whole pass 2: ENCODE 'A', ENCODE 'B' and FLUSH on "AB" -/

/-- In pass 2, the host's write of a command word. -/
theorem passTwo_command {s t u : State} {ys : List Symbol} {w : Word} {i : Instr} {ps : List HostOp} {more : List Turn}
    (h : PassTwo s ys t) (hd : decode w = .command i) (ht : t.turns = .host :: more)
    (hp : t.prog = .wr Reg.cmd.index w :: ps) (hu : exec i { t with prog := ps, turns := more } = .next u)
    (hr : u.phase.inPassTwo = true) : PassTwo s ys u := by
  have hn : t.nextTurn = .host := by simp [State.nextTurn, ht]
  have h1 : step t = .next u := by
    unfold step
    rw [hn]
    show hostTurn t.endTurn = _
    unfold hostTurn
    rw [State.endTurn_prog, hp]
    show acceptWord w { t with prog := t.prog.tail, turns := t.turns.tail } = _
    rw [hp, ht]
    unfold acceptWord
    rw [hd]
    exact hu
  have p := PassTwo.next h h1 hr
  rwa [State.encodedByStep_of_ne (by rw [hn]; decide), List.append_nil] at p

/-- In pass 2, the engine's completion. -/
theorem passTwo_engine {s t : State} {ys : List Symbol} {p : Pending} {more : List Turn} (h : PassTwo s ys t)
    (ht : t.turns = .engine :: more) (hp : t.pend = some p) (he : t.completionEnabled p = true)
    (hr : (State.complete { t with turns := more } p).phase.inPassTwo = true) :
    PassTwo s (ys ++ if p.op = .encode then [argLow p.arg] else []) (State.complete { t with turns := more } p) := by
  have hn : t.nextTurn = .engine := by simp [State.nextTurn, ht]
  have h1 : step t = .next (State.complete { t with turns := more } p) := by
    unfold step
    rw [hn]
    show Host.Outcome.next (State.engineStep { t with turns := t.turns.tail }) = _
    rw [ht]
    exact congrArg Host.Outcome.next (State.engineStep_enabled (s := { t with turns := more }) hp he)
  rw [← State.encodedByStep_completed hn hp he]
  exact .next h h1 hr

/-- The host's ENCODE and its completion. -/
theorem passTwo_encode {s t : State} {ys : List Symbol} {w : Word} {a : Arg} {ps : List HostOp} {more : List Turn}
    (h : PassTwo s ys t) (hd : decode w = .command (.encode a)) (ht : t.turns = .host :: .engine :: more)
    (hp : t.prog = .wr Reg.cmd.index w :: ps) (hb : t.pend = none) (hph : t.phase = .coded ∨ t.phase = .encoding)
    (hpre : encodePrecheck a t = none) (hr : t.hasRoom { op := .encode, arg := a, fmt := t.fmt } = true) :
    PassTwo s (ys ++ [argLow a])
      (State.completeEncode { t with prog := ps, turns := more, pend := some { op := .encode, arg := a, fmt := t.fmt } }
        { op := .encode, arg := a, fmt := t.fmt }) := by
  have hx : exec (.encode a) { t with prog := ps, turns := .engine :: more } =
      .next (State.defer { t with prog := ps, turns := .engine :: more } .encode a) := by
    have hpre' : encodePrecheck a { t with prog := ps, turns := .engine :: more } = none := hpre
    show accept (.encode a) (encodePrecheck a { t with prog := ps, turns := .engine :: more }) _ _ = _
    rw [hpre']
    refine accept_ok ?_ ?_ ?_
    · simp [State.busy, hb]
    · rcases hph with e | e <;> simp [e]
    · rcases hph with e | e <;> simp [e, legalIn]
  have p1 := passTwo_command h hd ht hp hx h.inPassTwo
  exact passTwo_engine (p := { op := .encode, arg := a, fmt := t.fmt }) p1 rfl rfl hr
    (by rcases hph with e | e <;> simp [e, Phase.inPassTwo])

/-- "AB" in CODED, with the host's accesses and the turns of its pass 2. -/
def beforePassTwo : State :=
  { coded ab with
    prog := [.wr Reg.cmd.index 0x00004140#32, .wr Reg.cmd.index 0x00004240#32, .wr Reg.cmd.index 0x00000041#32]
    turns := [.host, .engine, .host, .engine, .host, .engine] }

theorem inv_beforePassTwo : Inv beforePassTwo := inv_ab.withHost _ _ _ _

theorem codeBits_ab (y : Symbol) (h : y = 0x41#8 ∨ y = 0x42#8) :
    (coded ab).codeBits y = [decide (y = 0x42#8)] := by
  have e : (coded ab).codeAt y = _ := State.completeGencodes_codeAt (built ab) y
  have hc : (coded ab).codeAt y = [decide (y = 0x42#8)] := by
    rw [e, State.codeAt_withCodes, assignments_built]
    rcases h with h | h <;> subst h <;> rfl
  rw [State.codeBits_eq, hc]
  rw [hc, lenAt_ab, if_pos h]
  rfl

/-- An ENCODE's acceptance in `beforePassTwo` with its accesses and turns used up to the completion. -/
def atA : State :=
  { beforePassTwo with
    prog := [.wr Reg.cmd.index 0x00004240#32, .wr Reg.cmd.index 0x00000041#32]
    turns := [.host, .engine, .host, .engine]
    pend := some { op := .encode, arg := 0x41#9, fmt := .packed } }

/-- After ENCODE 'A'. -/
def afterA : State := atA.completeEncode { op := .encode, arg := 0x41#9, fmt := .packed }

theorem afterA_eq :
    afterA.fifo = [] ∧ afterA.accN = 1#3 ∧ afterA.encFmt = .packed ∧ afterA.phase = .encoding ∧
    afterA.encN = 1#32 ∧ afterA.fmt = .packed := by
  have hb : atA.codeBits (argLow 0x41#9) = [false] := codeBits_ab 0x41#8 (.inl rfl)
  have e : afterA = State.finishEncode (State.emitBits (atA.latchFormat .packed)
      (atA.codeBits (argLow 0x41#9))) (argLow 0x41#9) := rfl
  rw [e, hb]
  exact ⟨rfl, rfl, rfl, rfl, rfl, rfl⟩

theorem passTwo_afterA : PassTwo beforePassTwo [0x41#8] afterA := by
  have hl : beforePassTwo.lenAt 0x41#8 = 1#8 := (lenAt_ab 0x41#8).trans (if_pos (.inl rfl))
  have hpre : encodePrecheck 0x41#9 beforePassTwo = none := by
    show (if beforePassTwo.lenAt 0x41#8 = 0#8 then _ else _) = _
    rw [hl]
    rfl
  have hroom : beforePassTwo.hasRoom { op := .encode, arg := 0x41#9, fmt := .packed } = true := by
    refine hasRoom_of_empty rfl ?_
    show (0 + (beforePassTwo.lenAt 0x41#8).toNat) / 8 ≤ 255
    rw [hl]
    decide
  exact passTwo_encode (PassTwo.start beforePassTwo rfl) (show decode 0x00004140#32 = _ by decide) rfl rfl rfl (.inl rfl)
    hpre hroom

/-- An ENCODE's acceptance in `afterA` with its accesses and turns used up to the completion. -/
def atB : State :=
  { afterA with
    prog := [.wr Reg.cmd.index 0x00000041#32]
    turns := [.host, .engine]
    pend := some { op := .encode, arg := 0x42#9, fmt := afterA.fmt } }

/-- After ENCODE 'B'. -/
def afterB : State := atB.completeEncode { op := .encode, arg := 0x42#9, fmt := afterA.fmt }

theorem lenAt_afterA (y : Symbol) : afterA.lenAt y = if y = 0x41#8 ∨ y = 0x42#8 then 1#8 else 0#8 := by
  unfold afterA
  rw [State.completeEncode_lenAt]
  exact lenAt_ab y

theorem passTwo_afterB : PassTwo beforePassTwo [0x41#8, 0x42#8] afterB := by
  obtain ⟨hf, hn, he, hp, hN, -⟩ := afterA_eq
  have hl : afterA.lenAt 0x42#8 = 1#8 := (lenAt_afterA 0x42#8).trans (if_pos (.inr rfl))
  have hpre : encodePrecheck 0x42#9 afterA = none := by
    show (if afterA.lenAt 0x42#8 = 0#8 then _ else if afterA.encN = maxWord then _ else _) = _
    rw [hl, hN]
    rfl
  have hroom : afterA.hasRoom { op := .encode, arg := 0x42#9, fmt := afterA.fmt } = true := by
    refine hasRoom_of_empty (by simp [State.outLevel, hf]) ?_
    have hl' : (afterA.lenAt (argLow 0x42#9)).toNat = 1 := congrArg BitVec.toNat hl
    simp [State.bytesNeeded, State.runFormat, hp, he, hn, hl']
  exact passTwo_encode passTwo_afterA (show decode 0x00004240#32 = _ by decide) (by simp [afterA, atA])
    (by simp [afterA, atA]) (by simp [afterA]) (.inr hp) hpre hroom

theorem afterB_eq : afterB.fifo = [] ∧ afterB.accN = 2#3 ∧ afterB.encFmt = .packed ∧ afterB.phase = .encoding := by
  obtain ⟨hf, hn, he, hp, -, -⟩ := afterA_eq
  have hc : atB.codeBits (argLow 0x42#9) = [true] := by
    have hb : afterA.codeBit 0x42#8 = (coded ab).codeBit 0x42#8 := by
      funext i
      simp only [State.codeBit, State.codeAt, afterA, State.completeEncode_code]
      rfl
    have hl : afterA.lenAt 0x42#8 = (coded ab).lenAt 0x42#8 := (lenAt_afterA _).trans (lenAt_ab _).symm
    show (List.range (afterA.lenAt 0x42#8).toNat).map (afterA.codeBit 0x42#8) = _
    rw [hb, hl]
    exact codeBits_ab 0x42#8 (.inr rfl)
  have e : afterB = State.finishEncode (State.emitBit (atB.latchFormat afterA.fmt) true) (argLow 0x42#9) := by
    have e : afterB = State.finishEncode (State.emitBits (atB.latchFormat afterA.fmt)
      (atB.codeBits (argLow 0x42#9))) (argLow 0x42#9) := rfl
    rw [e, hc]
    rfl
  have hl : (atB.latchFormat afterA.fmt).encFmt = .packed := by simp [State.latchFormat, atB, hp, he]
  have hn' : (atB.latchFormat afterA.fmt).accN = 1#3 := hn
  rw [e, State.emitBit_packed hl, State.emitPacked_partial (by rw [hn']; decide)]
  refine ⟨hf, ?_, hl, ?_⟩
  · show (atB.latchFormat afterA.fmt).accN + 1#3 = 2#3
    rw [hn']
    rfl
  · show (if afterA.phase = .coded then Phase.encoding else afterA.phase) = .encoding
    rw [hp]
    rfl

theorem exec_flush_encoding {s : State} (hb : s.pend = none) (hp : s.phase = .encoding) :
    exec .flush s = .next (s.defer .flush 0#9) :=
  accept_ok (i := .flush) (s := s) (by simp [State.busy, hb]) (by simp [hp]) (by simp [hp, legalIn])

/-- The run reaches DONE by FLUSH, with "AB" encoded. -/
theorem witness_RoundTrip_passTwo :
    Inv beforePassTwo ∧ beforePassTwo.codesV = true ∧
    ∃ t, PassTwo beforePassTwo [0x41#8, 0x42#8] t ∧ t.phase = .done := by
  obtain ⟨hf, hn, he, hp⟩ := afterB_eq
  have p1 := passTwo_command (ps := []) (more := [.engine]) passTwo_afterB (show decode 0x00000041#32 = .command .flush by decide)
    (by simp [afterB, atB]) (by simp [afterB, atB]) (exec_flush_encoding (by simp [afterB]) hp)
    (by simp [hp, Phase.inPassTwo])
  have hroom : afterB.hasRoom { op := .flush, arg := 0#9, fmt := afterB.fmt } = true := by
    refine hasRoom_of_empty (by simp [State.outLevel, hf]) ?_
    simp [State.bytesNeeded, State.runFormat, hp, he, hn]
  exact ⟨inv_beforePassTwo, rfl, _,
    passTwo_engine (p := { op := .flush, arg := 0#9, fmt := afterB.fmt }) p1 rfl rfl hroom rfl, rfl⟩

theorem witness_WeightedAverage_passTwo :
    Inv beforePassTwo ∧ PassTwo beforePassTwo [0x41#8, 0x42#8] afterB ∧
    ∀ y : Symbol, [0x41#8, 0x42#8].count y = (beforePassTwo.freqAt y).toNat := by
  refine ⟨inv_beforePassTwo, passTwo_afterB, fun y => ?_⟩
  have e : beforePassTwo.freqAt y = _ := freqAt_ab y
  rw [e]
  revert y
  decide +kernel

theorem witness_WeightedAverage :
    CountsAgree (counted ab) ∧ ∀ y : Symbol, [0x42#8, 0x41#8].count y = ((counted ab).freqAt y).toNat :=
  ⟨countsAgree_ab, by simp only [freqAt_counted]; decide +kernel⟩

theorem witness_ReportFigures :
    { tabled abCodes with encN := 1#32, outBits := 1#64, total := 1#32 }.encN ≠ 0#32 ∧
    { tabled abCodes with encN := 1#32, outBits := 1#64, total := 1#32 }.outBits ≠ 0#64 ∧
    { tabled abCodes with encN := 1#32, outBits := 1#64, total := 1#32 }.codesV = true ∧
    { tabled abCodes with encN := 1#32, outBits := 1#64, total := 1#32 }.total ≠ 0#32 := by decide

theorem witness_IdAndReservedOffsets : 0x6C ≤ byteOffset 27#6 ∧ 0x6C ≤ byteOffset 63#6 := by decide

theorem witness_StatusLayout :
    { State.reset with fifo := List.replicate 4095 0#8 }.outLevel ≤ 4095 := Nat.le_of_eq List.length_replicate

theorem witness_HostReads :
    { State.reset with fifo := [0x6E#8] }.fifo = 0x6E#8 :: [] ∧ State.reset.fifo = [] ∧
    (26#6 : RegIndex) ≠ Reg.outData.index := by decide

theorem witness_HostWrites : (0#6 : RegIndex) ≠ 1#6 ∧ (0#6 : RegIndex) ≠ 2#6 := by decide

theorem witness_PendingShowsTheStateBefore :
    { overfull with prog := [.rd 16#6], turns := [.host] }.nextTurn = .host ∧
    (∀ w, ¬ { overfull with prog := [.rd 16#6], turns := [.host] }.writesCommand w) ∧
    ∃ t, step { overfull with prog := [.rd 16#6], turns := [.host] } = .next t ∧
      t.fifo = List.replicate 4095 0x30#8 := by
  refine ⟨rfl, ?_, _, rfl, rfl⟩
  rintro w ⟨_, rest, h⟩
  cases h

theorem witness_WaitAndDrainLoops :
    { State.reset with fifo := [0x6E#8], prog := [.drain], turns := [.host, .host] }.prog = .drain :: [] ∧
    { State.reset with fifo := [0x6E#8], prog := [.drain], turns := [.host, .host] }.turns =
      List.replicate (1 + 1) .host ++ [] ∧
    { overfull with prog := [.wait], turns := [.host] }.nextTurn = .host ∧
    { overfull with prog := [.wait], turns := [.host] }.prog = .wait :: [] := ⟨rfl, rfl, rfl, rfl⟩

theorem witness_CountsAreKept :
    CountsAgree (counted ab) ∧ ∃ t, step (counted ab) = .next t := ⟨countsAgree_ab, _, rfl⟩

theorem witness_PhaseIsKept : PhaseAgrees State.reset ∧ ∃ t, step State.reset = .next t := ⟨phaseAgrees_reset, _, rfl⟩

theorem witness_EncoderIsKept :
    PhaseAgrees (coded ab) ∧ EncoderAgrees (coded ab) ∧ ∃ t, step (coded ab) = .next t :=
  ⟨inv_ab.phase, inv_ab.encoder, _, rfl⟩

theorem witness_OutputLengthIsKept :
    PhaseAgrees (coded ab) ∧ EncoderAgrees (coded ab) ∧ OutputAgrees (coded ab) ∧
    ∃ t, step (coded ab) = .next t := ⟨inv_ab.phase, inv_ab.encoder, inv_ab.output, _, rfl⟩

theorem witness_InvariantIsKept : Inv (coded ab) ∧ ∃ t, step (coded ab) = .next t := ⟨inv_ab, _, rfl⟩

end Sys2Proof.Tests
end

/-! # Proofs: spec/00_scope.md -/

section
/-! The fields of a command word as its bits (spec/30_encoding.md rules R63 and R74). -/

namespace Sys2Proof

theorem CommandFields.toNat_op_ofWord (w : Word) : (CommandFields.ofWord w).op.toNat = w.toNat % 2 ^ 8 := by
  simp [CommandFields.ofWord]

theorem CommandFields.toNat_arg_ofWord (w : Word) :
    (CommandFields.ofWord w).arg.toNat = w.toNat / 2 ^ 8 % 2 ^ 9 := by
  simp [CommandFields.ofWord, Nat.shiftRight_eq_div_pow]

/-- RSV reaches up to bit 31, so nothing of the word is cut off above it. -/
theorem CommandFields.toNat_rsv_ofWord (w : Word) : (CommandFields.ofWord w).rsv.toNat = w.toNat / 2 ^ 17 := by
  have hw : w.toNat < 2 ^ 17 * 2 ^ 15 := w.isLt
  have hq : w.toNat / 2 ^ 17 < 2 ^ 15 := Nat.div_lt_of_lt_mul hw
  simp only [CommandFields.ofWord, BitVec.extractLsb'_toNat, Nat.shiftRight_eq_div_pow]
  exact Nat.mod_eq_of_lt hq

/-- Settles O4: the fields word by word, and the sixteen example words, which are closed facts. -/
theorem commandWordFormat : Obligations.CommandWordFormat :=
  ⟨fun w => ⟨CommandFields.toNat_op_ofWord w, CommandFields.toNat_arg_ofWord w, CommandFields.toNat_rsv_ofWord w,
    CommandFields.toWord_ofWord w⟩, by decide⟩

end Sys2Proof
end

section
/-! The engine's turn as a step of the machine (spec/40_host_port.md rule R81). -/

namespace Sys2Proof.Machine

/-- Emission neither reads nor changes the turns. -/
theorem State.emitBits_endTurn (bs : List Bool) (s : State) : s.endTurn.emitBits bs = (s.emitBits bs).endTurn := by
  induction bs generalizing s with
  | nil => rfl
  | cons b bs ih =>
    have hb : s.endTurn.emitBit b = (s.emitBit b).endTurn := by
      unfold State.emitBit
      cases hf : s.encFmt with
      | packed => simp only [State.endTurn_encFmt, hf, State.emitPacked, State.endTurn_accN]; split <;> rfl
      | textual => simp only [State.endTurn_encFmt, hf]; rfl
    rw [State.emitBits_cons, State.emitBits_cons, hb, ih]

/-- FLUSH's last byte neither reads nor changes the turns. -/
theorem State.drainAcc_endTurn (s : State) : s.endTurn.drainAcc = s.drainAcc.endTurn := by
  unfold State.drainAcc
  rw [apply_ite State.endTurn]
  rfl

/-- A completion step neither reads nor changes the turns. -/
theorem State.complete_endTurn (s : State) (p : Pending) : s.endTurn.complete p = (s.complete p).endTurn := by
  obtain ⟨op, a, f⟩ := p
  cases op with
  | build =>
    have ht : s.endTurn.buildTree = s.buildTree := State.buildTree_congr rfl
    simp only [State.complete_build, State.completeBuild, ht]
    rfl
  | gencodes =>
    have ha : s.endTurn.assignments = s.assignments := State.assignments_congr rfl rfl
    simp only [State.complete_gencodes, State.completeGencodes, ha]
    rfl
  | encode =>
    have he := State.emitBits_endTurn (s.codeBits (argLow a)) (s.latchFormat f)
    exact congrArg (fun t => t.finishEncode (argLow a)) he
  | flush =>
    have hd := State.drainAcc_endTurn (s.latchFormat f)
    exact congrArg (fun t => { t with phase := .done, pend := none }) hd

theorem step_of_engine {s : State} (h : s.nextTurn = .engine) : step s = .next s.endTurn.engineStep := by
  simp [step, h, takeTurn]

/-- Settles O7: an engine turn on the state with the turn used up, in the three cases of `engineStep`. -/
theorem engineTurn : Obligations.EngineTurn := by
  intro s hn
  rw [step_of_engine hn]
  refine ⟨fun hb => ?_, fun p hp he => ?_, fun p hp he => ?_⟩
  · have hp : s.pend = none := by simpa [State.busy] using hb
    exact congrArg _ (State.engineStep_none (s := s.endTurn) hp)
  · exact congrArg _ (State.engineStep_held (s := s.endTurn) hp he)
  · have ht : s.endTurn.engineStep = (s.complete p).endTurn :=
      (State.engineStep_enabled (s := s.endTurn) hp he).trans (State.complete_endTurn s p)
    refine ⟨_, rfl, ?_, ?_, ?_, ?_⟩ <;> rw [ht]
    · simp [State.endTurn]
    · simp [State.busy]
    · simp
    · simp

end Sys2Proof.Machine
end

section
/-! Insertion into the working list (spec/42_tree_builder.md rule R97). -/

namespace Sys2Proof.Machine

/-- A node made later comes first only when it is strictly lighter. -/
theorem QueueItem.keyLt_iff_weight_lt {x y : QueueItem} (h : y.index.toNat < x.index.toNat) :
    x.keyLt y = true ↔ x.weight < y.weight := by
  rw [QueueItem.keyLt_iff]
  omega

/-- Insertion keeps the list ascending when the node's index is new. -/
theorem ascending_insertByKey {x : QueueItem} {q : List QueueItem} (hq : Ascending q)
    (hx : ∀ y ∈ q, x.index ≠ y.index) : Ascending (insertByKey x q) := by
  induction q with
  | nil => exact List.pairwise_singleton _ _
  | cons y ys ih =>
    obtain ⟨hy, hys⟩ := List.pairwise_cons.mp hq
    rw [insertByKey_cons]
    cases hlt : x.keyLt y with
    | true =>
      rw [if_pos rfl]
      refine List.pairwise_cons.mpr ⟨fun z hz => ?_, hq⟩
      rcases List.mem_cons.mp hz with rfl | hz
      · exact hlt
      · exact QueueItem.keyLt_trans hlt (hy z hz)
    | false =>
      rw [if_neg Bool.false_ne_true]
      refine List.pairwise_cons.mpr ⟨fun z hz => ?_, ih hys fun z hz => hx z (List.mem_cons_of_mem y hz)⟩
      rcases List.mem_cons.mp ((insertByKey_perm x ys).mem_iff.mp hz) with rfl | hz
      · exact QueueItem.keyLt_of_not hlt (hx y List.mem_cons_self)
      · exact hy z hz

/-- Inserting a node with a later index than all others splits an ascending list at its weight. -/
theorem insertByKey_eq_filter {x : QueueItem} {q : List QueueItem} (hq : Ascending q)
    (hx : ∀ y ∈ q, y.index.toNat < x.index.toNat) :
    insertByKey x q = q.filter (fun y => y.weight ≤ x.weight) ++ x :: q.filter (fun y => x.weight < y.weight) := by
  induction q with
  | nil => rfl
  | cons y ys ih =>
    obtain ⟨hy, hys⟩ := List.pairwise_cons.mp hq
    have hkey := QueueItem.keyLt_iff_weight_lt (hx y List.mem_cons_self)
    rw [insertByKey_cons]
    rcases Nat.lt_or_ge x.weight y.weight with hlt | hge
    · have hall : ∀ z ∈ y :: ys, x.weight < z.weight := by
        intro z hz
        rcases List.mem_cons.mp hz with rfl | hz
        · exact hlt
        · have := QueueItem.keyLt_iff.mp (hy z hz)
          omega
      have hle : (y :: ys).filter (fun z => z.weight ≤ x.weight) = [] :=
        List.filter_eq_nil_iff.mpr fun z hz => by simpa using hall z hz
      have hgt : (y :: ys).filter (fun z => x.weight < z.weight) = y :: ys :=
        List.filter_eq_self.mpr fun z hz => by simpa using hall z hz
      rw [if_pos (hkey.mpr hlt), hle, hgt, List.nil_append]
    · rw [if_neg fun h => Nat.not_lt.mpr hge (hkey.mp h), ih hys fun z hz => hx z (List.mem_cons_of_mem y hz)]
      simp [hge, Nat.not_lt.mpr hge]

/-- Settles O25, by induction along the list: at the first heavier node all that follow are heavier. -/
theorem insertGoesAfterEqualWeights : Obligations.InsertGoesAfterEqualWeights := fun _ _ hq hx =>
  ⟨insertByKey_eq_filter hq hx,
    ascending_insertByKey hq fun y hy e => Nat.ne_of_gt (hx y hy) (congrArg BitVec.toNat e)⟩

end Sys2Proof.Machine
end

section
/-! The number of bytes a completion pushes (spec/44_encoder.md rules R116 and R117). -/

namespace Sys2Proof.Machine

/-- In packed form the bits in ACC and the new bits give one byte for every eight (R116). -/
theorem State.emitBits_fifo_length_packed {s : State} (h : s.encFmt = .packed) (bs : List Bool) :
    (s.emitBits bs).fifo.length = s.fifo.length + (s.accN.toNat + bs.length) / 8 := by
  induction bs generalizing s with
  | nil =>
    have := s.accN.isLt
    simp only [State.emitBits_nil, List.length_nil]
    omega
  | cons b bs ih =>
    rw [State.emitBits_cons, ih (by rw [State.emitBit_encFmt, h]), State.emitBit_packed h, List.length_cons]
    rcases Nat.lt_or_ge s.accN.toNat 7 with hn | hn
    · have hs : (s.accN + 1#3).toNat = s.accN.toNat + 1 :=
        BitVec.toNat_add_of_lt (show s.accN.toNat + 1 < 2 ^ 3 by omega)
      rw [State.emitPacked_partial hn]
      dsimp only
      rw [hs]
      omega
    · have h7 : s.accN.toNat = 7 := by have := s.accN.isLt; omega
      rw [State.emitPacked_full h7]
      simp only [List.length_append, List.length_singleton, BitVec.toNat_ofNat, h7]
      omega

/-- In textual form every bit gives one byte (R116). -/
theorem State.emitBits_fifo_length_textual {s : State} (h : s.encFmt = .textual) (bs : List Bool) :
    (s.emitBits bs).fifo.length = s.fifo.length + bs.length := by
  induction bs generalizing s with
  | nil => rfl
  | cons b bs ih =>
    have hb : (s.emitBit b).fifo.length = s.fifo.length + 1 := by
      simp [State.emitBit_textual h, State.emitTextual, State.push]
    rw [State.emitBits_cons, ih (by rw [State.emitBit_encFmt, h]), hb, List.length_cons]
    omega

/-- FLUSH pushes one byte when bits are left in ACC in packed form, and otherwise none (R114). -/
theorem State.drainAcc_fifo_length (s : State) :
    s.drainAcc.fifo.length = s.fifo.length + if s.encFmt = .packed ∧ 0 < s.accN.toNat then 1 else 0 := by
  unfold State.drainAcc
  split <;> simp [State.push]

/-- The latched ENC_FMT is the form the completion emits in (R117, R40). -/
theorem State.latchFormat_encFmt_eq_runFormat (s : State) (p : Pending) :
    (s.latchFormat p.fmt).encFmt = s.runFormat p := rfl

theorem State.completeEncode_fifo_length (s : State) {p : Pending} (h : p.op = .encode) :
    (s.completeEncode p).fifo.length = s.fifo.length + s.bytesNeeded p := by
  change ((s.latchFormat p.fmt).emitBits (s.codeBits (argLow p.arg))).fifo.length = _
  cases hf : s.runFormat p with
  | packed => simp [State.emitBits_fifo_length_packed (s := s.latchFormat p.fmt) hf, State.bytesNeeded, h, hf]
  | textual => simp [State.emitBits_fifo_length_textual (s := s.latchFormat p.fmt) hf, State.bytesNeeded, h, hf]

theorem State.completeFlush_fifo_length (s : State) {p : Pending} (h : p.op = .flush) :
    (s.completeFlush p).fifo.length = s.fifo.length + s.bytesNeeded p := by
  change (s.latchFormat p.fmt).drainAcc.fifo.length = _
  rw [State.drainAcc_fifo_length, State.latchFormat_encFmt_eq_runFormat]
  simp only [State.bytesNeeded, h]
  rfl

/-- Of an ENCODE or a FLUSH, need is what the completion pushes (R117). -/
theorem State.complete_fifo_length (s : State) {p : Pending} (h : p.op = .encode ∨ p.op = .flush) :
    (s.complete p).fifo.length = s.fifo.length + s.bytesNeeded p := by
  obtain h | h := h
  · simpa only [State.complete, h] using s.completeEncode_fifo_length h
  · simpa only [State.complete, h] using s.completeFlush_fifo_length h

/-- At most 7 bits in ACC and 255 of a code make 32 bytes (R117). -/
theorem State.bytesNeeded_le_of_packed {s : State} {p : Pending} (h : s.runFormat p = .packed) :
    s.bytesNeeded p ≤ 32 := by
  have ha := s.accN.isLt
  have hl := (s.lenAt (argLow p.arg)).isLt
  unfold State.bytesNeeded
  cases p.op with
  | build => exact Nat.zero_le _
  | gencodes => exact Nat.zero_le _
  | encode => simp only [h]; omega
  | flush => dsimp only; split <;> omega

theorem State.bytesNeeded_le (s : State) (p : Pending) : s.bytesNeeded p ≤ 255 := by
  cases hf : s.runFormat p with
  | packed => exact (State.bytesNeeded_le_of_packed hf).trans (by decide)
  | textual =>
    have hl := (s.lenAt (argLow p.arg)).isLt
    unfold State.bytesNeeded
    cases p.op with
    | build => exact Nat.zero_le _
    | gencodes => exact Nat.zero_le _
    | encode => simp only [hf]; omega
    | flush => simp [hf]

/-- An empty FIFO holds every completion's bytes, as D_OUT is at least 256 (R9, R117). -/
theorem State.hasRoom_of_outLevel_eq_zero {s : State} (p : Pending) (h : s.outLevel = 0) : s.hasRoom p = true := by
  have hn := s.bytesNeeded_le p
  have hd := Config.le_dOut
  exact decide_eq_true (by omega)

/-- Settles O40, by counting the bytes of an emission bit by bit. -/
theorem needIsTheBytesPushed : Obligations.NeedIsTheBytesPushed :=
  ⟨⟨Config.le_dOut, Config.dOut_le⟩, fun s p =>
    ⟨s.complete_fifo_length, State.bytesNeeded_le_of_packed, s.bytesNeeded_le p, State.hasRoom_of_outLevel_eq_zero p⟩⟩

end Sys2Proof.Machine
end

/-! # Proofs: spec/10_state.md -/

section
/-! The start of a run (spec/10_state.md rule R44): CLEAR and reset lead to it, and every invariant holds there. -/

namespace Sys2Proof.Machine

theorem State.clear_freqAt (s : State) (y : Symbol) : s.clear.freqAt y = 0#32 := by simp [State.freqAt]

theorem State.clear_lenAt (s : State) (y : Symbol) : s.clear.lenAt y = 0#8 := by simp [State.lenAt]

/-- CLEAR gives every value of R44 but CTRL's (R83). -/
theorem State.runStart_clear (s : State) : RunStart s.clear := by
  constructor
  case freq => exact s.clear_freqAt
  case len => exact s.clear_lenAt
  case res => simp
  all_goals rfl

/-- The values of R44 that reset and CLEAR share do not speak of CTRL. -/
theorem RunStart.withFmt {s : State} (h : RunStart s) (f : Format) : RunStart { s with fmt := f } := by
  cases h
  constructor <;> assumption

theorem State.runStart_applyReset (s : State) : RunStart s.applyReset := s.runStart_clear.withFmt .packed

theorem State.runStart_reset : RunStart State.reset := by
  constructor
  case freq => intro y; simp [State.reset, State.freqAt]
  case len => intro y; simp [State.reset, State.lenAt]
  case res => simp [State.reset]
  all_goals rfl

/-- With nothing encoded and no command pending the encoder's invariant holds, in every phase. -/
theorem NothingEncoded.encoderAgrees {s : State} (h : NothingEncoded s) (hp : s.pend = none) : EncoderAgrees s where
  bound := by simp [h.outBits]
  acc := by simp [h.acc, h.accN]
  level := by simp [h.fifo]
  error := fun _ => ⟨h.fifo, h.accN⟩
  textual := fun _ => h.accN
  done := fun _ => h.accN
  before := fun _ => h
  pend := by simp [hp]

section
variable {s : State} (h : RunStart s)
include h

theorem RunStart.busy : s.busy = false := by simp [State.busy, h.pend]

theorem RunStart.statusWord : s.statusWord = 0#32 := by
  simp only [State.statusWord, State.outLevel, State.stall, State.single, State.errf, h.busy, h.fifo, h.accN, h.pend,
    h.encFmt, h.treeV, h.errCode, h.phase, Bool.false_and]
  decide

theorem RunStart.countsAgree : CountsAgree s where
  total := by
    have hz : s.freqSum = 0 := List.sum_eq_zero fun x hx => by
      obtain ⟨y, _, rfl⟩ := List.mem_map.mp hx
      rw [h.freq]
      rfl
    rw [hz, h.total]
    rfl
  nsym := by
    have hz : s.countedSymbols = [] := List.filter_eq_nil_iff.mpr (by simp [h.freq])
    rw [hz, h.nsym]
    rfl

theorem RunStart.phaseAgrees : PhaseAgrees s where
  tree := by rw [h.phase]; exact h.treeV
  codes := by rw [h.phase]; exact h.codesV
  codesNeedTree := by simp [h.codesV]
  error := by simp [h.errCode, h.phase]
  errCmd := fun _ => h.errCmd
  pend := by simp [h.pend]

theorem RunStart.treeAgrees : TreeAgrees s where
  leaves := by simp [h.treeV]
  nodes := by simp [h.treeV]
  root := by simp [h.treeV]
  noTree := fun _ => h.root
  pend := by simp [h.pend]

theorem RunStart.codesAgree : CodesAgree s where
  table := by simp [h.codesV]
  complete := by simp [h.codesV]
  wsum := by simp [h.codesV]
  maxLen := by simp [h.codesV]
  noCodes := fun _ => ⟨h.len, h.wsum, h.maxLen⟩

theorem RunStart.nothingEncoded (hr : s.outRead = []) : NothingEncoded s :=
  ⟨h.encFmt, h.acc, h.accN, h.encN, h.outBits, h.fifo, hr⟩

theorem RunStart.encoderAgrees (hr : s.outRead = []) : EncoderAgrees s :=
  (h.nothingEncoded hr).encoderAgrees h.pend

theorem RunStart.outputAgrees : OutputAgrees s where
  encoding := by simp [h.phase]
  packed := by simp [h.phase]
  textual := by simp [h.phase]

/-- Every invariant holds at the start of a run. -/
theorem RunStart.inv (hr : s.outRead = []) : Inv s :=
  ⟨h.countsAgree, h.phaseAgrees, h.treeAgrees, h.codesAgree, h.encoderAgrees hr, h.outputAgrees⟩

end

/-- Settles O54: the first state is the start of a run. -/
theorem invariantAtReset : Obligations.InvariantAtReset := State.runStart_reset.inv rfl

/-- Settles O18: the values of R44 are `runStart_clear`'s, and CLEAR writes none of the host's fields. -/
theorem clearStartsANewRun : Obligations.ClearStartsANewRun := fun s =>
  ⟨s.clear, rfl, s.runStart_clear, s.clear_fmt, s.runStart_clear.statusWord, s.clear_prog, s.clear_turns,
    s.clear_readData⟩

theorem step_of_reset {s : State} (h : s.nextTurn = .reset) : step s = .next s.endTurn.applyReset := by
  simp [step, h, takeTurn]

/-- Settles O8: a reset turn and the first state are both the start of a run, with CTRL.FMT = 0. -/
theorem resetValues : Obligations.ResetValues :=
  ⟨fun s hn =>
    have hs := s.endTurn.runStart_applyReset
    ⟨_, step_of_reset hn, hs, rfl, hs.busy, congrArg List.length hs.fifo, hs.statusWord, rfl, rfl, rfl⟩,
   State.runStart_reset, rfl, State.runStart_reset.statusWord, rfl⟩

end Sys2Proof.Machine
end

section
/-! What one step writes of the block's runs: a second inversion of `step`, with the host's side of the port left open
(spec/20_memory.md rule R56, spec/40_host_port.md rules R75 to R81). -/

namespace Sys2Proof.Machine

/-- A host read writes the value returned, and pops at most (R75, R38). -/
theorem State.hostRead_eq (s : State) (i : RegIndex) : s.hostRead i =
    { s with readData := s.readValue i, fifo := (s.hostRead i).fifo, outRead := (s.hostRead i).outRead } := by
  by_cases hi : i = Reg.outData.index
  · subst hi
    cases hf : s.fifo <;> simp [State.hostRead_outData, State.popOutput, hf] <;> rfl
  · rw [State.hostRead_of_ne _ hi]

theorem State.countArg_of_le (s : State) {a : Arg} (h : a.toNat ≤ 255) :
    s.countArg a = s.countSymbol (a.setWidth 8) := by
  simp only [State.countArg, argSymbol_of_le h]

theorem State.countArg_of_gt (s : State) {a : Arg} (h : 255 < a.toNat) : s.countArg a = s := by
  simp only [State.countArg, argSymbol_of_gt h]

/-- The FIFO and the host's bytes are as before, or one byte has gone from the FIFO's head to the host (R38). -/
def FifoRead (s t : State) : Prop :=
  t.fifo = s.fifo ∧ t.outRead = s.outRead ∨ ∃ b, s.fifo = b :: t.fifo ∧ t.outRead = s.outRead ++ [b]

theorem State.fifoRead_hostRead (s : State) (i : RegIndex) : FifoRead s (s.hostRead i) := by
  by_cases hi : i = Reg.outData.index
  · subst hi
    cases hf : s.fifo with
    | nil => exact .inl (by simp [State.hostRead_outData, State.popOutput, hf])
    | cons b rest => exact .inr ⟨b, by simp [State.hostRead_outData, State.popOutput, hf]⟩
  · rw [State.hostRead_of_ne _ hi]
    exact .inl ⟨rfl, rfl⟩

/-- What one step writes of the block: the start of a run, an error, a count, PEND, a completion, or none of these. -/
inductive StepEffect (s t : State) : Prop where
  /-- CLEAR or reset. -/
  | started (hw : s.nextTurn = .reset ∨ ∃ w, s.writesCommand w ∧ decode w = .command .clear) (ht : RunStart t)
      (hr : t.outRead = [])
  /-- CTRL, a pop, a readout and the host's own side at most. -/
  | quiet (hread : FifoRead s t)
      (ht : ∃ fmt fifo res prog readData outRead turns, t = { s with fmt := fmt, fifo := fifo, res := res, prog := prog,
                                                                     readData := readData, outRead := outRead,
                                                                     turns := turns })
  /-- An error is raised. -/
  | raised (w v : Word) (e : ErrorCode) (hw : s.writesCommand w) (he : e ≠ .none)
      (ht : ∃ prog turns, t = { s.raise e v with prog := prog, turns := turns })
  /-- A symbol is counted. -/
  | counted (w : Word) (a : Arg) (hw : s.writesCommand w) (hd : decode w = .command (.count a)) (ha : a.toNat ≤ 255)
      (hb : s.busy = false) (hp : s.phase = .count) (hc : countPrecheck a s = none)
      (ht : ∃ prog turns, t = { s.countSymbol (a.setWidth 8) with prog := prog, turns := turns })
  /-- A deferred command is accepted. -/
  | deferred (w : Word) (op : DeferredOp) (a : Arg) (hw : s.writesCommand w) (hd : decode w = .command (op.instr a))
      (hb : s.busy = false) (hp : pendingLegal op s.phase = true) (hc : precheckOf (op.instr a) s = none)
      (ht : ∃ prog turns, t = { s.defer op a with prog := prog, turns := turns })
  /-- The engine completes the pending command. -/
  | completed (p : Pending) (hn : s.nextTurn = .engine) (hp : s.pend = some p) (he : s.completionEnabled p = true)
      (ht : ∃ turns, t = { s.complete p with turns := turns })

theorem StepEffect.unchanged {s t : State} {fmt : Format} {res : Vector Word 9} {prog : List HostOp}
    {turns : List Turn} (ht : t = { s with fmt := fmt, res := res, prog := prog, turns := turns }) : StepEffect s t :=
  .quiet (.inl (by simp [ht])) ⟨_, _, _, _, _, _, _, ht⟩

/-- The inversion of step by what is written. -/
theorem step_effect {s t : State} (h : step s = .next t) : StepEffect s t := by
  cases step_cases h with
  | reset hn ht => subst ht; exact .started (.inl hn) s.endTurn.runStart_applyReset rfl
  | engineIdle _ _ ht => exact .unchanged ht
  | completed p hn hp he ht =>
    rw [State.complete_endTurn] at ht
    exact .completed p hn hp he ⟨_, ht⟩
  | read i prog _ _ ht =>
    refine .quiet (by subst ht; exact s.endTurn.fifoRead_hostRead i) ?_
    rw [State.hostRead_eq] at ht
    exact ⟨_, _, _, _, _, _, _, ht⟩
  | wrote f prog _ _ ht => exact .unchanged ht
  | command w i hw hd ht =>
    cases ht with
    | cleared hi ht => subst ht hi; exact .started (.inr ⟨w, hw, hd⟩) (State.runStart_clear _) rfl
    | raised e he _ ht => exact .raised w _ e hw he ⟨_, _, ht⟩
    | noEffect _ ht => exact .unchanged ht
    | counted a hi hb hp hc ht =>
      subst hi
      rcases Nat.lt_or_ge 255 a.toNat with ha | ha
      · rw [State.countArg_of_gt _ ha] at ht
        exact .unchanged ht
      · rw [State.countArg_of_le _ ha] at ht
        exact .counted w a hw hd ha hb hp hc ⟨_, _, ht⟩
    | readout ws _ _ ht => exact .unchanged ht
    | deferred op a hb hp hi hc ht =>
      subst hi
      refine .deferred w op a hw hd hb hp ?_ ⟨_, _, ht⟩
      cases op <;> exact hc
  | illegal w _ hw _ ht =>
    rcases acceptIllegal_cases ht with ⟨_, ht⟩ | ⟨_, _, ht⟩ | ⟨_, _, ht⟩
    · exact .raised w w .cmdWhileBusy hw (by simp) ⟨_, _, ht⟩
    · exact .unchanged ht
    · exact .raised w w .illegalCmd hw (by simp) ⟨_, _, ht⟩

end Sys2Proof.Machine
end

section
/-! Only COUNT writes the histogram, and it keeps the counts in agreement (spec/10_state.md rules R24 to R26). -/

namespace Sys2Proof.Machine

/-- A sum over distinct elements, of two functions that differ at one of them. -/
theorem sum_map_of_eq_except {α : Type} [DecidableEq α] {l : List α} (hl : l.Nodup) {a : α} (ha : a ∈ l) {f g : α → Nat}
    (h : ∀ b, b ≠ a → g b = f b) : (l.map g).sum + f a = (l.map f).sum + g a := by
  have hsplit : ∀ k : α → Nat, (l.map k).sum = k a + ((l.erase a).map k).sum := fun k => by
    simpa using ((List.perm_cons_erase ha).map k).sum_eq
  have hrest : (l.erase a).map g = (l.erase a).map f :=
    List.map_congr_left fun b hb => h b fun e => by
      subst e
      exact hl.not_mem_erase hb
  rw [hsplit g, hsplit f, hrest]
  omega

theorem State.freqAt_congr {s t : State} (h : t.freq = s.freq) (y : Symbol) : t.freqAt y = s.freqAt y := by
  simp only [State.freqAt, h]

/-- The counts' agreement reads FREQ, TOTAL and NSYM only. -/
theorem CountsAgree.congr {s t : State} (h : CountsAgree s) (hf : t.freq = s.freq) (ht : t.total = s.total)
    (hn : t.nsym = s.nsym) : CountsAgree t where
  total := by simpa only [ht, State.freqSum, State.freqAt_congr hf] using h.total
  nsym := by simpa only [hn, State.countedSymbols, State.freqAt_congr hf] using h.nsym

theorem State.freqAt_le_freqSum (s : State) (y : Symbol) : (s.freqAt y).toNat ≤ s.freqSum :=
  List.single_le_sum (by simp) _ (List.mem_map_of_mem (mem_allSymbols y))

theorem State.length_countedSymbols_le (s : State) : s.countedSymbols.length ≤ 256 :=
  (List.length_filter_le _ _).trans_eq length_allSymbols

/-- |{s : FREQ[s] > 0}| as a sum of ones (R25). -/
theorem State.length_countedSymbols (s : State) :
    s.countedSymbols.length = (allSymbols.map fun y => if s.freqAt y = 0#32 then 0 else 1).sum := by
  unfold State.countedSymbols
  induction allSymbols with
  | nil => rfl
  | cons y ys ih => by_cases hy : s.freqAt y = 0#32 <;> simp [hy, ih, Nat.add_comm]

/-- One more occurrence of a symbol below the bound of TOTAL: no count overflows, and the sums follow (R24, R25,
R92). -/
theorem CountsAgree.countSymbol {s : State} (h : CountsAgree s) (y : Symbol) (ht : s.total ≠ maxWord) :
    CountsAgree (s.countSymbol y) := by
  have hmax : s.total.toNat + 1 < 2 ^ 32 := by
    have hne : s.total.toNat ≠ 2 ^ 32 - 1 := fun e => ht (BitVec.eq_of_toNat_eq e)
    have := s.total.isLt
    omega
  have hle := s.freqAt_le_freqSum y
  rw [← h.total] at hle
  have hf : (s.freqAt y + 1#32).toNat = (s.freqAt y).toNat + 1 :=
    BitVec.toNat_add_of_lt (show (s.freqAt y).toNat + 1 < 2 ^ 32 by omega)
  have hother : ∀ z, z ≠ y → (s.countSymbol y).freqAt z = s.freqAt z := fun z hz => by
    rw [State.freqAt_countSymbol, if_neg hz]
  have hself : (s.countSymbol y).freqAt y = s.freqAt y + 1#32 := by rw [State.freqAt_countSymbol, if_pos rfl]
  constructor
  case total =>
    have hsum := sum_map_of_eq_except nodup_allSymbols (mem_allSymbols y) (f := fun z => (s.freqAt z).toNat)
      (g := fun z => ((s.countSymbol y).freqAt z).toNat) fun z hz => congrArg _ (hother z hz)
    have ht : (s.total + 1#32).toNat = s.total.toNat + 1 := BitVec.toNat_add_of_lt hmax
    simp only [hself, hf] at hsum
    rw [State.countSymbol_total, ht, h.total]
    unfold State.freqSum
    omega
  case nsym =>
    have hsum := sum_map_of_eq_except nodup_allSymbols (mem_allSymbols y)
      (f := fun z => if s.freqAt z = 0#32 then 0 else 1)
      (g := fun z => if (s.countSymbol y).freqAt z = 0#32 then 0 else 1) fun z hz => by rw [hother z hz]
    have hne : (s.countSymbol y).freqAt y ≠ 0#32 := fun e => by
      have := congrArg BitVec.toNat e
      rw [hself, hf] at this
      exact absurd this (by simp)
    rw [← State.length_countedSymbols, ← State.length_countedSymbols, if_neg hne] at hsum
    have hbound := s.length_countedSymbols_le
    rw [← h.nsym] at hsum hbound
    rw [State.countSymbol_nsym]
    split
    · next hz =>
      have hn : (s.nsym + 1#9).toNat = s.nsym.toNat + 1 :=
        BitVec.toNat_add_of_lt (show s.nsym.toNat + 1 < 2 ^ 9 by omega)
      rw [if_pos hz] at hsum
      omega
    · next hz =>
      rw [if_neg hz] at hsum
      omega

/-- COUNT's precheck passes for a symbol only below the bound of TOTAL (R92). -/
theorem total_ne_maxWord_of_countPrecheck {a : Arg} {s : State} (h : countPrecheck a s = none) (ha : a.toNat ≤ 255) :
    s.total ≠ maxWord := fun e => by
  simp [countPrecheck, ha, e] at h

/-- Settles O55: COUNT's effect is `CountsAgree.countSymbol`, CLEAR and reset start a run, and nothing else writes
FREQ, TOTAL or NSYM. -/
theorem countsAreKept : Obligations.CountsAreKept := by
  apply step_keeps
  case hclear => exact fun s => s.runStart_clear.countsAgree
  case hreset => exact fun s => s.runStart_applyReset.countsAgree
  case hraise => exact fun s e w _ h => h.congr rfl rfl rfl
  case hend => exact fun s h => h.congr rfl rfl rfl
  case hnext => exact fun s h => h.congr rfl rfl rfl
  case hread => exact fun s i prog h => h.congr (s.hostRead_freq i) (s.hostRead_total i) (s.hostRead_nsym i)
  case hwrote => exact fun s f prog h => h.congr rfl rfl rfl
  case hcount =>
    intro s a h hb hp hc
    rcases Nat.lt_or_ge 255 a.toNat with ha | ha
    · rwa [s.countArg_of_gt ha]
    · rw [s.countArg_of_le ha]
      exact h.countSymbol _ (total_ne_maxWord_of_countPrecheck hc ha)
  case hres => exact fun s ws h => h.congr rfl rfl rfl
  case hdefer => exact fun s op a h _ _ _ => h.congr rfl rfl rfl
  case hcomp => exact fun s p h _ _ => h.congr (s.complete_freq p) (s.complete_total p) (s.complete_nsym p)

/-- Settles O22: of all that a step can write only CLEAR, reset and COUNT concern FREQ, TOTAL and NSYM. -/
theorem onlyCountWritesTheHistogram : Obligations.OnlyCountWritesTheHistogram := by
  intro s t h
  cases step_effect h with
  | started _ ht _ => exact .inr (.inl ht)
  | quiet _ ht => obtain ⟨_, _, _, _, _, _, _, rfl⟩ := ht; exact .inl ⟨rfl, rfl, rfl⟩
  | raised w v e _ _ ht => obtain ⟨_, _, rfl⟩ := ht; exact .inl ⟨rfl, rfl, rfl⟩
  | counted w a hw hd ha _ _ _ ht =>
    obtain ⟨_, _, rfl⟩ := ht
    refine .inr (.inr ⟨w, a, hw, hd, ha, ?_, rfl, fun y hy => ?_⟩)
    · exact (s.freqAt_countSymbol _ _).trans (if_pos rfl)
    · exact (s.freqAt_countSymbol _ _).trans (if_neg hy)
  | deferred w op a _ _ _ _ _ ht => obtain ⟨_, _, rfl⟩ := ht; exact .inl ⟨rfl, rfl, rfl⟩
  | completed p _ _ _ ht => obtain ⟨_, rfl⟩ := ht; exact .inl ⟨s.complete_freq p, s.complete_total p, s.complete_nsym p⟩

end Sys2Proof.Machine
end

section
/-! PHASE with the valid bits, the error registers, BUSY and PEND (spec/10_state.md rules R20 to R23, R27 and R30). -/

namespace Sys2Proof.Machine

/-- The agreement of PHASE reads PHASE, the valid bits, ERR, ERR_CMD and PEND only. -/
theorem PhaseAgrees.congr {s t : State} (h : PhaseAgrees s) (hp : t.phase = s.phase) (ht : t.treeV = s.treeV)
    (hc : t.codesV = s.codesV) (he : t.errCode = s.errCode) (hm : t.errCmd = s.errCmd) (hn : t.pend = s.pend) :
    PhaseAgrees t where
  tree := by simpa only [hp, ht] using h.tree
  codes := by simpa only [hp, hc] using h.codes
  codesNeedTree := by simpa only [hc, ht] using h.codesNeedTree
  error := by simpa only [he, hp] using h.error
  errCmd := by simpa only [he, hm] using h.errCmd
  pend := by simpa only [hn, hp] using h.pend

/-- An error leaves its code, or the run's first one, in ERR (R128). -/
theorem State.raise_errCode_ne_none (s : State) {e : ErrorCode} (he : e ≠ .none) (w : Word) :
    (s.raise e w).errCode ≠ .none := by
  rw [State.raise_errCode]
  split
  · exact he
  · assumption

theorem PhaseAgrees.raise {s : State} (h : PhaseAgrees s) {e : ErrorCode} (he : e ≠ .none) (w : Word) :
    PhaseAgrees (s.raise e w) := by
  have hcode := s.raise_errCode_ne_none he w
  exact
    { tree := trivial
      codes := trivial
      codesNeedTree := h.codesNeedTree
      error := iff_of_false hcode (by simp)
      errCmd := fun hn => absurd hn hcode
      pend := by simp }

theorem PhaseAgrees.defer {s : State} (h : PhaseAgrees s) {op : DeferredOp} (a : Arg)
    (hp : pendingLegal op s.phase = true) : PhaseAgrees (s.defer op a) where
  tree := h.tree
  codes := h.codes
  codesNeedTree := h.codesNeedTree
  error := h.error
  errCmd := h.errCmd
  pend := by
    intro p hq
    cases hq
    exact hp

/-- The phases in which each deferred command can be pending (R79). -/
theorem pendingLegal_iff {op : DeferredOp} {p : Phase} : pendingLegal op p = true ↔
    match op with
    | .build => p = .count
    | .gencodes => p = .built
    | .encode | .flush => p = .coded ∨ p = .encoding := by
  cases op <;> simp [pendingLegal]

/-- The completion steps of R20's table, each from its phases. -/
inductive CompletionCase (s : State) (p : Pending) (t : State) : Prop where
  | build (hop : p.op = .build) (hp : s.phase = .count) (ht : t = s.completeBuild)
  | gencodes (hop : p.op = .gencodes) (hp : s.phase = .built) (ht : t = s.completeGencodes)
  | encode (hop : p.op = .encode) (hp : s.phase = .coded ∨ s.phase = .encoding) (ht : t = s.completeEncode p)
  | flush (hop : p.op = .flush) (hp : s.phase = .coded ∨ s.phase = .encoding) (ht : t = s.completeFlush p)

/-- The inversion of a completion step in a state whose PHASE agrees with PEND. -/
theorem PhaseAgrees.completionCase {s : State} (h : PhaseAgrees s) {p : Pending} (hp : s.pend = some p) :
    CompletionCase s p (s.complete p) := by
  have hl := pendingLegal_iff.mp (h.pend p hp)
  obtain ⟨op, a, f⟩ := p
  cases op with
  | build => exact .build rfl hl rfl
  | gencodes => exact .gencodes rfl hl rfl
  | encode => exact .encode rfl hl rfl
  | flush => exact .flush rfl hl rfl

/-- After an ENCODE's completion the run is in ENCODING (R111). -/
theorem State.completeEncode_phase_of_legal {s : State} (p : Pending) (h : s.phase = .coded ∨ s.phase = .encoding) :
    (s.completeEncode p).phase = .encoding := by
  rw [State.completeEncode_phase]
  rcases h with h | h <;> simp [h]

/-- In CODED and ENCODING both valid bits are set. -/
theorem PhaseAgrees.valid {s : State} (h : PhaseAgrees s) (hp : s.phase = .coded ∨ s.phase = .encoding) :
    s.treeV = true ∧ s.codesV = true := by
  have ht := h.tree
  have hc := h.codes
  rcases hp with hp | hp <;> rw [hp] at ht hc <;> exact ⟨ht, hc⟩

/-- In BUILT a tree exists and no code table. -/
theorem PhaseAgrees.valid_of_built {s : State} (h : PhaseAgrees s) (hp : s.phase = .built) :
    s.treeV = true ∧ s.codesV = false := by
  have ht := h.tree
  have hc := h.codes
  rw [hp] at ht hc
  exact ⟨ht, hc⟩

/-- In COUNT neither a tree nor a code table exists. -/
theorem PhaseAgrees.valid_of_count {s : State} (h : PhaseAgrees s) (hp : s.phase = .count) :
    s.treeV = false ∧ s.codesV = false := by
  have ht := h.tree
  have hc := h.codes
  rw [hp] at ht hc
  exact ⟨ht, hc⟩

/-- A completion step enters a phase with a tree, and with a code table from CODED on; it leaves ERR alone and ends
BUSY (R20, R81). -/
theorem PhaseAgrees.of_completed {s t : State} (h : PhaseAgrees s) (hs : s.phase ≠ .error) (htree : t.treeV = true)
    (hcodes : t.phase = .built ∧ t.codesV = false ∨
      (t.phase = .coded ∨ t.phase = .encoding ∨ t.phase = .done) ∧ t.codesV = true)
    (he : t.errCode = s.errCode) (hm : t.errCmd = s.errCmd) (hn : t.pend = none) : PhaseAgrees t := by
  have hnone : t.errCode = .none := he.trans (h.error.mpr hs)
  have hcmd : t.errCmd = 0#32 := hm.trans (h.errCmd (h.error.mpr hs))
  constructor
  case codesNeedTree => exact fun _ => htree
  case errCmd => exact fun _ => hcmd
  case pend => simp [hn]
  all_goals rcases hcodes with ⟨hp, hc⟩ | ⟨hp | hp | hp, hc⟩ <;> simp [hp, hc, htree, hnone]

/-- "BUSY = 1 implies PHASE ≠ ERROR" (R22). -/
theorem PhaseAgrees.phase_ne_error {s : State} (h : PhaseAgrees s) {p : Pending} (hp : s.pend = some p) :
    s.phase ≠ .error := by
  cases h.completionCase hp with
  | build _ hq _ => simp [hq]
  | gencodes _ hq _ => simp [hq]
  | encode _ hq _ => rcases hq with hq | hq <;> simp [hq]
  | flush _ hq _ => rcases hq with hq | hq <;> simp [hq]

/-- A completion step keeps the agreement of PHASE. -/
theorem PhaseAgrees.complete {s : State} (h : PhaseAgrees s) {p : Pending} (hp : s.pend = some p) :
    PhaseAgrees (s.complete p) := by
  refine h.of_completed (h.phase_ne_error hp) ?_ ?_ (s.complete_errCode p) (s.complete_errCmd p) (s.complete_pend p) <;>
    cases h.completionCase hp with
    | build _ hq ht => simp [ht, h.valid_of_count hq]
    | gencodes _ hq ht => simp [ht, h.valid_of_built hq]
    | encode _ hq ht => simp [ht, h.valid hq, State.completeEncode_phase_of_legal p hq, -State.completeEncode_phase]
    | flush _ hq ht => simp [ht, h.valid hq]

/-- Settles O56: an error enters ERROR with its code, a completion step enters its phase with the valid bits, and the
other actions keep every field concerned or start a run. -/
theorem phaseIsKept : Obligations.PhaseIsKept := by
  apply step_keeps
  case hclear => exact fun s => s.runStart_clear.phaseAgrees
  case hreset => exact fun s => s.runStart_applyReset.phaseAgrees
  case hraise => exact fun s e w he h => h.raise he w
  case hend => exact fun s h => h.congr rfl rfl rfl rfl rfl rfl
  case hnext => exact fun s h => h.congr rfl rfl rfl rfl rfl rfl
  case hread =>
    intro s i prog h
    exact h.congr (s.hostRead_phase i) (s.hostRead_treeV i) (s.hostRead_codesV i) (s.hostRead_errCode i)
      (s.hostRead_errCmd i) (s.hostRead_pend i)
  case hwrote => exact fun s f prog h => h.congr rfl rfl rfl rfl rfl rfl
  case hcount =>
    intro s a h _ _ _
    exact h.congr (s.countArg_phase a) (s.countArg_treeV a) (s.countArg_codesV a) (s.countArg_errCode a)
      (s.countArg_errCmd a) (s.countArg_pend a)
  case hres => exact fun s ws h => h.congr rfl rfl rfl rfl rfl rfl
  case hdefer => exact fun s op a h _ hp _ => h.defer a hp
  case hcomp => exact fun s p h hp _ => h.complete hp

/-- Settles O15: only CLEAR, reset, an error and a completion write PHASE, and each completion starts in the phases of
its pending command. -/
theorem phaseTransitions : Obligations.PhaseTransitions := by
  intro s t hs h
  cases step_effect h with
  | started hw ht _ => exact .inr (.inl ⟨ht.phase, ht, hw⟩)
  | quiet _ ht => obtain ⟨_, _, _, _, _, _, _, rfl⟩ := ht; exact .inl rfl
  | raised w v e hw he ht =>
    obtain ⟨_, _, rfl⟩ := ht
    exact .inr (.inr (.inl ⟨rfl, s.raise_errCode_ne_none he v, w, hw⟩))
  | counted w a _ _ _ _ _ _ ht => obtain ⟨_, _, rfl⟩ := ht; exact .inl rfl
  | deferred w op a _ _ _ _ _ ht => obtain ⟨_, _, rfl⟩ := ht; exact .inl rfl
  | completed p hn hp _ ht =>
    have hph : t.phase = (s.complete p).phase := by obtain ⟨_, rfl⟩ := ht; rfl
    cases hs.completionCase hp with
    | build hop hq ht =>
      exact .inr (.inr (.inr ⟨hn, p, hp, .inl ⟨hop, hq, by simp [hph, ht]⟩⟩))
    | gencodes hop hq ht =>
      exact .inr (.inr (.inr ⟨hn, p, hp, .inr (.inl ⟨hop, hq, by simp [hph, ht]⟩)⟩))
    | encode hop hq ht =>
      rcases hq with hq | hq
      · exact .inr (.inr (.inr ⟨hn, p, hp, .inr (.inr (.inl ⟨hop, hq, by simp [hph, ht, hq]⟩))⟩))
      · exact .inl (by simp [hph, ht, hq])
    | flush hop hq ht =>
      exact .inr (.inr (.inr ⟨hn, p, hp, .inr (.inr (.inr ⟨hop, hq, by simp [hph, ht]⟩))⟩))

/-- Settles O16: PEND is written at the start of a run, by an error, by the acceptance of a deferred command and by a
completion, and by nothing else. -/
theorem busyTransitions : Obligations.BusyTransitions := by
  intro s t h
  cases step_effect h with
  | started _ ht _ => exact ⟨fun _ h1 => by simp [ht.busy] at h1, fun _ _ => .inr (.inr ht)⟩
  | quiet _ ht =>
    have hb : t.busy = s.busy := by obtain ⟨_, _, _, _, _, _, _, rfl⟩ := ht; rfl
    exact ⟨fun h0 h1 => by simp [hb, h0] at h1, fun h1 h0 => by simp [hb, h1] at h0⟩
  | raised w v e _ _ ht =>
    obtain ⟨_, _, rfl⟩ := ht
    exact ⟨fun _ h1 => by simp [State.busy] at h1, fun _ _ => .inr (.inl rfl)⟩
  | counted w a _ _ _ _ _ _ ht =>
    have hb : t.busy = s.busy := by obtain ⟨_, _, rfl⟩ := ht; rfl
    exact ⟨fun h0 h1 => by simp [hb, h0] at h1, fun h1 h0 => by simp [hb, h1] at h0⟩
  | deferred w op a hw hd hb _ _ ht =>
    refine ⟨fun _ _ => ⟨w, a, hw, ?_⟩, fun h1 _ => by simp [hb] at h1⟩
    cases op <;> simp [hd, DeferredOp.instr]
  | completed p hn hp he ht =>
    obtain ⟨_, rfl⟩ := ht
    exact ⟨fun _ h1 => by simp [State.busy] at h1, fun _ _ => .inl ⟨hn, p, hp, he⟩⟩

end Sys2Proof.Machine
end

section
/-! Only BUILD writes the tree, only GENCODES the code table, and the form is latched once (spec/10_state.md rules R27
to R33 and R40). -/

namespace Sys2Proof.Machine

/-- Settles O33: a completion writes the tree only when it is BUILD's, and the code table only when it is GENCODES'. -/
theorem onlyCompletionsWriteTreeAndCodes : Obligations.OnlyCompletionsWriteTreeAndCodes := by
  intro s t h
  cases step_effect h with
  | started _ ht _ => exact .inl ht
  | quiet _ ht =>
    obtain ⟨_, _, _, _, _, _, _, rfl⟩ := ht
    exact .inr ⟨.inl ⟨rfl, rfl, rfl⟩, .inl ⟨rfl, rfl, rfl, rfl, rfl⟩⟩
  | raised w v e _ _ ht =>
    obtain ⟨_, _, rfl⟩ := ht
    exact .inr ⟨.inl ⟨rfl, rfl, rfl⟩, .inl ⟨rfl, rfl, rfl, rfl, rfl⟩⟩
  | counted w a _ _ _ _ _ _ ht =>
    obtain ⟨_, _, rfl⟩ := ht
    exact .inr ⟨.inl ⟨rfl, rfl, rfl⟩, .inl ⟨rfl, rfl, rfl, rfl, rfl⟩⟩
  | deferred w op a _ _ _ _ _ ht =>
    obtain ⟨_, _, rfl⟩ := ht
    exact .inr ⟨.inl ⟨rfl, rfl, rfl⟩, .inl ⟨rfl, rfl, rfl, rfl, rfl⟩⟩
  | completed p hn hp _ ht =>
    obtain ⟨_, rfl⟩ := ht
    obtain ⟨op, a, f⟩ := p
    refine .inr ?_
    cases op with
    | build => exact ⟨.inr ⟨hn, _, hp, rfl, rfl⟩, .inl ⟨rfl, rfl, rfl, rfl, rfl⟩⟩
    | gencodes => exact ⟨.inl (by simp), .inr ⟨hn, _, hp, rfl, rfl⟩⟩
    | encode => exact ⟨.inl (by simp), .inl (by simp)⟩
    | flush => exact ⟨.inl (by simp), .inl (by simp)⟩

/-- Of the completions only ENCODE's and FLUSH's latch the form, and only in CODED (R40). -/
theorem State.complete_encFmt (s : State) (p : Pending) :
    (s.complete p).encFmt = s.encFmt ∨
      s.phase = .coded ∧ (p.op = .encode ∨ p.op = .flush) ∧ (s.complete p).encFmt = p.fmt := by
  obtain ⟨op, a, f⟩ := p
  cases op with
  | build => exact .inl rfl
  | gencodes => exact .inl (by simp)
  | encode | flush =>
    by_cases hq : s.phase = .coded
    · exact .inr ⟨hq, by simp, by simp [hq]⟩
    · exact .inl (by simp [hq])

/-- A command that is accepted with BUSY = 0 and becomes pending records CTRL.FMT (R40, R81). -/
theorem exec_pend_fmt {i : Instr} {s t : State} {p : Pending} (hb : s.busy = false) (h : exec i s = .next t)
    (hp : t.pend = some p) : p.fmt = s.fmt := by
  have hs : s.pend = none := by simpa [State.busy] using hb
  cases exec_cases h with
  | cleared _ ht => simp [ht] at hp
  | raised e _ _ ht => simp [ht] at hp
  | noEffect _ ht => simp [ht, hs] at hp
  | counted a _ _ _ _ ht => simp [ht, hs] at hp
  | readout ws _ _ ht => simp [ht, hs] at hp
  | deferred op a _ _ _ _ ht =>
    subst ht
    cases hp
    rfl

/-- Settles O43: of all that a step can write only a completion in CODED and the start of a run concern ENC_FMT. -/
theorem formatIsLatchedOnce : Obligations.FormatIsLatchedOnce := by
  refine ⟨fun s t h => ?_, fun i s t p hb h hp => exec_pend_fmt hb h hp⟩
  cases step_effect h with
  | started _ ht _ => exact .inr (.inl ht)
  | quiet _ ht => obtain ⟨_, _, _, _, _, _, _, rfl⟩ := ht; exact .inl rfl
  | raised w v e _ _ ht => obtain ⟨_, _, rfl⟩ := ht; exact .inl rfl
  | counted w a _ _ _ _ _ _ ht => obtain ⟨_, _, rfl⟩ := ht; exact .inl rfl
  | deferred w op a _ _ _ _ _ ht => obtain ⟨_, _, rfl⟩ := ht; exact .inl rfl
  | completed p hn hp _ ht =>
    obtain ⟨_, rfl⟩ := ht
    rcases s.complete_encFmt p with he | ⟨hq, hop, he⟩
    · exact .inl he
    · exact .inr (.inr ⟨hn, hq, p, hp, hop, he⟩)

end Sys2Proof.Machine
end

section
/-! The host port: reads, STATUS, and the hold of a command without FIFO room (spec/10_state.md rules R15 to R21 and
R38, spec/44_encoder.md rule R117). -/

namespace Sys2Proof.Machine

theorem step_of_commandWrite {s : State} {w : Word} {rest : List HostOp} (hn : s.nextTurn = .host)
    (hp : s.prog = .wr Reg.cmd.index w :: rest) :
    step s = acceptWord w { s with prog := rest, turns := s.turns.tail } := by
  have hrest : s.endTurn.nextStatement = { s with prog := rest, turns := s.turns.tail } := by
    simp [State.endTurn, State.nextStatement, hp]
  rw [← hrest, ← State.hostWrite_cmd]
  simp [step, hn, takeTurn, hostTurn, hp]

/-- Settles O5: the host's turn is the acceptance of the word, and acceptance is by cases of its decoding. -/
theorem stepRunsDecodedCommand : Obligations.StepRunsDecodedCommand := by
  intro s w rest hn hp
  rw [step_of_commandWrite hn hp]
  exact ⟨fun i hd => by simp [acceptWord, hd], fun why hd => by simp [acceptWord, hd]⟩

/-- No register stands at the offsets 0x6C to 0xFC (R77). -/
theorem Reg.ofIndex_reserved {i : RegIndex} (h : 0x6C ≤ byteOffset i) : Reg.ofIndex i = none := by
  revert i
  decide

/-- Settles O47: a reserved offset names no register, so it is neither CMD, CTRL nor OUT_DATA. -/
theorem idAndReservedOffsets : Obligations.IdAndReservedOffsets := by
  refine fun s => ⟨rfl, fun i hi => ?_⟩
  have hr := Reg.ofIndex_reserved hi
  have hv : s.readValue i = 0#32 := by simp [State.readValue, hr]
  have hne : i ≠ Reg.outData.index := by
    rintro rfl
    rw [Reg.ofIndex_index] at hr
    cases hr
  exact ⟨hv, by rw [s.hostRead_of_ne hne, hv], fun v => by simp [State.hostWrite, hr]⟩

/-- OUT_DATA with a byte in the FIFO reads VALID in bit 8 and the byte below it (R38). -/
theorem State.outDataWord_cons {s : State} {b : Byte} {rest : List Byte} (h : s.fifo = b :: rest) :
    s.outDataWord = BitVec.ofNat 32 (256 + b.toNat) := by
  have := b.isLt
  apply BitVec.eq_of_toNat_eq
  simp only [State.outDataWord, h, toNat_append_eq, BitVec.toNat_ofNat]
  omega

theorem State.hostRead_outData_cons {s : State} {b : Byte} {rest : List Byte} (h : s.fifo = b :: rest) :
    s.hostRead Reg.outData.index =
      { s with readData := s.outDataWord, fifo := rest, outRead := s.outRead ++ [b] } := by
  simp [State.hostRead_outData, State.popOutput, h]

theorem State.hostRead_outData_nil {s : State} (h : s.fifo = []) :
    s.hostRead Reg.outData.index = { s with readData := 0#32 } := by
  simp [State.hostRead_outData, State.popOutput, State.outDataWord, h]

/-- Settles O50: the two cases of a read of OUT_DATA, and the read of another register. -/
theorem hostReads : Obligations.HostReads := fun s =>
  ⟨fun b rest h => by rw [State.hostRead_outData_cons h, State.outDataWord_cons h], State.hostRead_outData_nil,
    fun _ hi => s.hostRead_of_ne hi⟩

theorem State.toNat_statusWord {s : State} (h : s.outLevel ≤ 4095) : s.statusWord.toNat =
    s.busy.toNat + 2 * s.phase.bits.toNat + 2 ^ 4 * s.errf.toNat + 2 ^ 5 * s.single.toNat + 2 ^ 6 * s.encFmt.bit.toNat +
      2 ^ 7 * s.stall.toNat + 2 ^ 8 * s.accN.toNat + 2 ^ 12 * s.outLevel := by
  simp only [State.statusWord, toNat_append_eq, BitVec.toNat_ofBool, BitVec.toNat_ofNat]
  omega

/-- Settles O49: STATUS is the sum of its fields, and each field's value is written out. -/
theorem statusLayout : Obligations.StatusLayout := by
  intro s h
  have hbusy : s.busy.toNat = if s.busy then 1 else 0 := by cases s.busy <;> rfl
  have herr : 2 ^ 4 * s.errf.toNat = if s.errCode ≠ .none then 2 ^ 4 else 0 := by
    by_cases he : s.errCode = .none <;> simp [State.errf, he]
  have hsingle : 2 ^ 5 * s.single.toNat = if s.treeV = true ∧ s.nsym = 1#9 then 2 ^ 5 else 0 := by
    cases ht : s.treeV <;> by_cases hn : s.nsym = 1#9 <;> simp [State.single, ht, hn]
  have hfmt : 2 ^ 6 * s.encFmt.bit.toNat = if s.encFmt = .textual then 2 ^ 6 else 0 := by cases s.encFmt <;> rfl
  have hstall : 2 ^ 7 * s.stall.toNat = if s.stall then 2 ^ 7 else 0 := by cases s.stall <;> rfl
  rw [State.toNat_statusWord h, hbusy, herr, hsingle, hfmt, hstall]
  cases s.phase <;> rfl

theorem State.statusWord_busy (s : State) : s.statusWord.getLsbD 0 = s.busy := by
  simp only [State.statusWord, BitVec.getLsbD_append]
  simp

theorem State.statusWord_stall (s : State) : s.statusWord.getLsbD 7 = s.stall := by
  simp only [State.statusWord, BitVec.getLsbD_append]
  simp

/-- The completion condition of an ENCODE and of a FLUSH is the FIFO space condition (R81, R117). -/
theorem State.completionEnabled_iff_room (s : State) {p : Pending} (h : p.op = .encode ∨ p.op = .flush) :
    s.completionEnabled p = true ↔ s.outLevel + s.bytesNeeded p ≤ Config.dOut := by
  rcases h with h | h <;> simp [State.completionEnabled, h, State.hasRoom]

theorem State.stall_eq {s : State} {p : Pending} (h : s.pend = some p) : s.stall = !s.completionEnabled p := by
  simp [State.stall, h]

/-- A host read leaves what a pending command needs (R117). -/
theorem State.hostRead_bytesNeeded (s : State) (i : RegIndex) (p : Pending) :
    (s.hostRead i).bytesNeeded p = s.bytesNeeded p :=
  (congrArg (State.bytesNeeded · p) (s.hostRead_eq i)).trans rfl

/-- Settles O41: the space condition decides the engine's turn and STALL, and a read that pops shortens the FIFO. -/
theorem holdUntilTheHostReads : Obligations.HoldUntilTheHostReads := by
  intro s p hp hop
  have hen := s.completionEnabled_iff_room hop
  refine ⟨fun hfull => ?_, fun hroom => ?_, fun hlevel => ?_⟩
  · have hheld : s.completionEnabled p = false := Bool.eq_false_iff.mpr (mt hen.mp (Nat.not_le.mpr hfull))
    refine ⟨State.engineStep_held hp hheld, ?_, ?_⟩
    · rw [State.statusWord_busy, State.busy, hp, Option.isSome_some]
    · rw [State.statusWord_stall, State.stall_eq hp, hheld, Bool.not_false]
  · have hready := hen.mpr hroom
    refine ⟨State.engineStep_enabled hp hready, ?_⟩
    rw [State.statusWord_stall, State.stall_eq hp, hready, Bool.not_true]
  · refine ⟨?_, (s.hostRead_pend _).trans hp, s.hostRead_bytesNeeded _ p⟩
    obtain ⟨b, rest, hf⟩ := List.exists_cons_of_length_pos hlevel
    simp [State.hostRead_outData_cons hf, State.outLevel, hf]

end Sys2Proof.Machine
end

section
/-! The encoder's invariants (spec/10_state.md rules R34 to R40 and R45, spec/44_encoder.md rules R111 to R116). -/

namespace Sys2Proof.Machine

/-! ## The accumulator under emission (R116) -/

theorem toNat_shiftIn {acc : Byte} (h : acc.toNat < 2 ^ 7) (b : Bool) :
    (shiftIn acc b).toNat = 2 * acc.toNat + b.toNat := by
  have hb : (if b then 1#8 else 0#8).toNat = b.toNat := by cases b <;> rfl
  have hlt : b.toNat < 2 ^ 1 := b.toNat_lt
  rw [shiftIn, BitVec.toNat_or, BitVec.toNat_shiftLeft, hb, Nat.mod_eq_of_lt (by rw [Nat.shiftLeft_eq]; omega),
    ← Nat.shiftLeft_add_eq_or_of_lt hlt, Nat.shiftLeft_eq]
  omega

/-- "Bits of ACC at and above ACC_N are 0" (R39), kept by the emission of a bit. -/
theorem State.emitBit_acc_lt {s : State} (h : s.acc.toNat < 2 ^ s.accN.toNat) (b : Bool) :
    (s.emitBit b).acc.toNat < 2 ^ (s.emitBit b).accN.toNat := by
  cases hf : s.encFmt with
  | packed =>
    rw [State.emitBit_packed hf]
    rcases Nat.lt_or_ge s.accN.toNat 7 with hn | hn
    · have hs : (s.accN + 1#3).toNat = s.accN.toNat + 1 :=
        BitVec.toNat_add_of_lt (show s.accN.toNat + 1 < 2 ^ 3 by omega)
      have h7 : s.acc.toNat < 2 ^ 7 := h.trans_le (Nat.pow_le_pow_right (by decide) hn.le)
      have := b.toNat_lt
      rw [State.emitPacked_partial hn]
      dsimp only
      rw [hs, toNat_shiftIn h7, Nat.pow_succ]
      omega
    · have := s.accN.isLt
      rw [State.emitPacked_full (by omega)]
      exact Nat.one_pos
  | textual =>
    rw [State.emitBit_textual hf]
    exact h

theorem State.emitBits_acc_lt {s : State} (h : s.acc.toNat < 2 ^ s.accN.toNat) (bs : List Bool) :
    (s.emitBits bs).acc.toNat < 2 ^ (s.emitBits bs).accN.toNat := by
  induction bs generalizing s with
  | nil => exact h
  | cons b bs ih => exact ih (State.emitBit_acc_lt h b)

/-- In packed form ACC_N counts the bits modulo 8 (R116). -/
theorem State.emitBits_accN_packed {s : State} (h : s.encFmt = .packed) (bs : List Bool) :
    (s.emitBits bs).accN.toNat = (s.accN.toNat + bs.length) % 8 := by
  induction bs generalizing s with
  | nil =>
    have := s.accN.isLt
    simp only [State.emitBits_nil, List.length_nil]
    omega
  | cons b bs ih =>
    rw [State.emitBits_cons, ih (by rw [State.emitBit_encFmt, h]), State.emitBit_packed h, List.length_cons]
    rcases Nat.lt_or_ge s.accN.toNat 7 with hn | hn
    · have hs : (s.accN + 1#3).toNat = s.accN.toNat + 1 :=
        BitVec.toNat_add_of_lt (show s.accN.toNat + 1 < 2 ^ 3 by omega)
      rw [State.emitPacked_partial hn]
      dsimp only
      omega
    · have h7 : s.accN.toNat = 7 := by have := s.accN.isLt; omega
      rw [State.emitPacked_full h7]
      simp only [BitVec.toNat_ofNat, h7]
      omega

/-- In textual form the accumulator is not used (R116). -/
theorem State.emitBits_accN_textual {s : State} (h : s.encFmt = .textual) (bs : List Bool) :
    (s.emitBits bs).accN = s.accN := by
  induction bs generalizing s with
  | nil => rfl
  | cons b bs ih =>
    rw [State.emitBits_cons, ih (by rw [State.emitBit_encFmt, h]), State.emitBit_textual h]
    rfl

/-! ## The frame of the encoder's invariant -/

theorem NothingEncoded.congr {s t : State} (h : NothingEncoded s) (hfmt : t.encFmt = s.encFmt) (hacc : t.acc = s.acc)
    (haccN : t.accN = s.accN) (hencN : t.encN = s.encN) (hout : t.outBits = s.outBits) (hfifo : t.fifo = s.fifo)
    (hread : t.outRead = s.outRead) : NothingEncoded t :=
  ⟨hfmt.trans h.encFmt, hacc.trans h.acc, haccN.trans h.accN, hencN.trans h.encN, hout.trans h.outBits,
    hfifo.trans h.fifo, hread.trans h.outRead⟩

theorem FifoRead.length_le {s t : State} (h : FifoRead s t) : t.fifo.length ≤ s.fifo.length := by
  rcases h with ⟨hf, _⟩ | ⟨b, hf, _⟩ <;> simp [hf]

theorem FifoRead.of_nil {s t : State} (h : FifoRead s t) (hs : s.fifo = []) :
    t.fifo = s.fifo ∧ t.outRead = s.outRead := by
  rcases h with h | ⟨b, hf, _⟩
  · exact h
  · rw [hs] at hf
    cases hf

/-- What the encoder's invariant reads beside the FIFO, the bytes read and the pending command. -/
structure EncoderFrame (s t : State) : Prop where
  phase : t.phase = s.phase
  encFmt : t.encFmt = s.encFmt
  acc : t.acc = s.acc
  accN : t.accN = s.accN
  encN : t.encN = s.encN
  outBits : t.outBits = s.outBits

/-- A pop at most, and the same pending command or another one that has passed its prechecks. -/
theorem EncoderAgrees.congr {s t : State} (h : EncoderAgrees s) (hf : EncoderFrame s t) (hread : FifoRead s t)
    (hpend : ∀ p, t.pend = some p → p.op = .encode →
      p.arg.toNat ≤ 255 ∧ t.lenAt (argLow p.arg) ≠ 0#8 ∧ t.encN ≠ maxWord) : EncoderAgrees t where
  bound := by rw [hf.outBits, hf.encN]; exact h.bound
  acc := by rw [hf.acc, hf.accN]; exact h.acc
  level := hread.length_le.trans h.level
  error := by
    rw [hf.phase, hf.accN]
    intro he
    obtain ⟨hnil, hn⟩ := h.error he
    exact ⟨(hread.of_nil hnil).1.trans hnil, hn⟩
  textual := by rw [hf.encFmt, hf.accN]; exact h.textual
  done := by rw [hf.phase, hf.accN]; exact h.done
  before := by
    rw [hf.phase]
    intro hp
    have hb := h.before hp
    obtain ⟨hfifo, hout⟩ := hread.of_nil hb.fifo
    exact hb.congr hf.encFmt hf.acc hf.accN hf.encN hf.outBits hfifo hout
  pend := hpend

/-- An error empties the FIFO and the accumulator (R128). -/
theorem EncoderAgrees.raise {s : State} (h : EncoderAgrees s) (e : ErrorCode) (w : Word) :
    EncoderAgrees (s.raise e w) where
  bound := h.bound
  acc := Nat.one_pos
  level := Nat.zero_le _
  error := fun _ => ⟨rfl, rfl⟩
  textual := fun _ => rfl
  done := fun _ => rfl
  before := by simp
  pend := by simp

/-- An ENCODE that passes its precheck has a code and room in ENC_N (R111). -/
theorem encodePrecheck_eq_none {a : Arg} {s : State} (h : encodePrecheck a s = none) :
    a.toNat ≤ 255 ∧ s.lenAt (argLow a) ≠ 0#8 ∧ s.encN ≠ maxWord := by
  unfold encodePrecheck at h
  rcases Nat.lt_or_ge 255 a.toNat with ha | ha
  · simp [argSymbol_of_gt ha] at h
  · simp only [argSymbol_of_le ha] at h
    split at h
    · cases h
    · next hl =>
      split at h
      · cases h
      · next hn => exact ⟨ha, hl, hn⟩

/-! ## The completions of ENCODE and FLUSH -/

/-- A run in textual form, latched or about to be, has no bit in ACC. -/
theorem EncoderAgrees.accN_of_textual {s : State} (h : EncoderAgrees s) {p : Pending}
    (hf : s.runFormat p = .textual) : s.accN = 0#3 := by
  unfold State.runFormat at hf
  split at hf
  · next hq => exact (h.before (.inr (.inr hq))).accN
  · exact h.textual hf

/-- One more code length within the bound: the sum does not overflow. -/
theorem EncoderAgrees.toNat_outBits_add {s : State} (h : EncoderAgrees s) (l : BitVec 8) :
    (s.outBits + l.setWidth 64).toNat = s.outBits.toNat + l.toNat := by
  have hb := h.bound
  have hn := s.encN.isLt
  have hl := l.isLt
  have hw : (l.setWidth 64).toNat = l.toNat := by simp only [BitVec.toNat_setWidth]; omega
  rw [BitVec.toNat_add_of_lt (by omega), hw]

theorem EncoderAgrees.completeEncode {s : State} (h : EncoderAgrees s) {p : Pending} (hp : s.pend = some p)
    (hop : p.op = .encode) (hq : s.phase = .coded ∨ s.phase = .encoding) (he : s.completionEnabled p = true) :
    EncoderAgrees (s.completeEncode p) := by
  obtain ⟨_, _, hmax⟩ := h.pend p hp hop
  have hph := State.completeEncode_phase_of_legal p hq
  have hroom := (s.completionEnabled_iff_room (.inl hop)).mp he
  constructor
  case bound =>
    have hb := h.bound
    have hl := (s.lenAt (argLow p.arg)).isLt
    have hn : (s.encN + 1#32).toNat = s.encN.toNat + 1 := by
      have hne : s.encN.toNat ≠ 2 ^ 32 - 1 := fun e => hmax (BitVec.eq_of_toNat_eq e)
      have := s.encN.isLt
      exact BitVec.toNat_add_of_lt (show s.encN.toNat + 1 < 2 ^ 32 by omega)
    rw [State.completeEncode_outBits, State.completeEncode_encN, h.toNat_outBits_add, hn]
    omega
  case acc => exact State.emitBits_acc_lt (s := s.latchFormat p.fmt) h.acc _
  case level => rwa [s.completeEncode_fifo_length hop]
  case error => rw [hph]; simp
  case textual =>
    intro hf
    have hrun : s.runFormat p = .textual := by rwa [State.completeEncode_encFmt] at hf
    exact (State.emitBits_accN_textual (s := s.latchFormat p.fmt) hrun _).trans (h.accN_of_textual hrun)
  case done => rw [hph]; simp
  case before => rw [hph]; simp
  case pend => simp

/-- FLUSH leaves the accumulator empty (R114). -/
theorem EncoderAgrees.completeFlush_accN {s : State} (h : EncoderAgrees s) (p : Pending) :
    (s.completeFlush p).accN = 0#3 ∧ (s.completeFlush p).acc = 0#8 := by
  change (s.latchFormat p.fmt).drainAcc.accN = 0#3 ∧ (s.latchFormat p.fmt).drainAcc.acc = 0#8
  by_cases hempty : s.accN = 0#3
  · have hacc : s.acc = 0#8 := by
      have := h.acc
      rw [hempty] at this
      exact BitVec.eq_of_toNat_eq (Nat.lt_one_iff.mp this)
    rw [State.drainAcc_empty (s := s.latchFormat p.fmt) (.inr hempty)]
    exact ⟨hempty, hacc⟩
  · have hf : s.runFormat p = .packed := by
      cases hrun : s.runFormat p with
      | packed => rfl
      | textual => exact absurd (h.accN_of_textual hrun) hempty
    rw [State.drainAcc_partial (s := s.latchFormat p.fmt) hf hempty]
    exact ⟨rfl, rfl⟩

theorem EncoderAgrees.completeFlush {s : State} (h : EncoderAgrees s) {p : Pending} (hop : p.op = .flush)
    (he : s.completionEnabled p = true) : EncoderAgrees (s.completeFlush p) := by
  have hroom := (s.completionEnabled_iff_room (.inr hop)).mp he
  obtain ⟨haccN, hacc⟩ := h.completeFlush_accN p
  constructor
  case bound => rw [State.completeFlush_outBits, State.completeFlush_encN]; exact h.bound
  case acc => rw [hacc, haccN]; exact Nat.one_pos
  case level => rwa [s.completeFlush_fifo_length hop]
  case error => simp
  case textual => exact fun _ => haccN
  case done => exact fun _ => haccN
  case before => simp
  case pend => simp

/-- A completion step keeps the encoder's invariant: BUILD and GENCODES find nothing encoded. -/
theorem EncoderAgrees.complete {s : State} (hs : PhaseAgrees s) (h : EncoderAgrees s) {p : Pending}
    (hp : s.pend = some p) (he : s.completionEnabled p = true) : EncoderAgrees (s.complete p) := by
  cases hs.completionCase hp with
  | build _ hq ht =>
    rw [ht]
    have hn : NothingEncoded s.completeBuild := (h.before (.inl hq)).congr rfl rfl rfl rfl rfl rfl rfl
    exact hn.encoderAgrees rfl
  | gencodes _ hq ht =>
    rw [ht]
    have hn : NothingEncoded s.completeGencodes := (h.before (.inr (.inl hq))).congr rfl rfl rfl rfl rfl rfl rfl
    exact hn.encoderAgrees rfl
  | encode hop hq ht =>
    rw [ht]
    exact h.completeEncode hp hop hq he
  | flush hop _ ht =>
    rw [ht]
    exact h.completeFlush hop he

/-- Settles O57: a completion within the FIFO's room, an accepted ENCODE's prechecks, an error's empty FIFO, and a
pop. -/
theorem encoderIsKept : Obligations.EncoderIsKept := by
  intro s t hs h hstep
  cases step_effect hstep with
  | started _ ht hr => exact (ht.nothingEncoded hr).encoderAgrees ht.pend
  | quiet hread ht =>
    obtain ⟨_, _, _, _, _, _, _, rfl⟩ := ht
    exact h.congr ⟨rfl, rfl, rfl, rfl, rfl, rfl⟩ hread h.pend
  | raised w v e _ _ ht =>
    obtain ⟨_, _, rfl⟩ := ht
    exact (h.raise e v).congr ⟨rfl, rfl, rfl, rfl, rfl, rfl⟩ (.inl ⟨rfl, rfl⟩) (h.raise e v).pend
  | counted w a _ _ _ _ _ _ ht =>
    obtain ⟨_, _, rfl⟩ := ht
    exact h.congr ⟨rfl, rfl, rfl, rfl, rfl, rfl⟩ (.inl ⟨rfl, rfl⟩) h.pend
  | deferred w op a _ _ _ _ hc ht =>
    obtain ⟨_, _, rfl⟩ := ht
    refine h.congr ⟨rfl, rfl, rfl, rfl, rfl, rfl⟩ (.inl ⟨rfl, rfl⟩) fun p hp hop => ?_
    cases hp
    cases hop
    exact encodePrecheck_eq_none hc
  | completed p _ hp he ht =>
    obtain ⟨_, rfl⟩ := ht
    have hcomp := h.complete hs hp he
    exact hcomp.congr ⟨rfl, rfl, rfl, rfl, rfl, rfl⟩ (.inl ⟨rfl, rfl⟩) hcomp.pend

end Sys2Proof.Machine
end

section
/-! The length of the output (spec/44_encoder.md rules R110 and R115). -/

namespace Sys2Proof.Machine

@[simp] theorem length_byteBits (b : Byte) : (byteBits b).length = 8 := by simp [byteBits]

theorem State.length_payload (s : State) : s.payload.length = s.outRead.length + s.fifo.length :=
  List.length_append

/-- In packed form the stream is eight bits a byte, and the bits in ACC (R116). -/
theorem State.length_emitted_packed {s : State} (h : s.encFmt = .packed) :
    s.emitted.length = 8 * s.payload.length + s.accN.toNat := by
  simp [State.emitted, State.payloadBits, h, State.accBits, Nat.mul_comm]

/-- In textual form the stream is one bit a byte (R116). -/
theorem State.length_emitted_textual {s : State} (h : s.encFmt = .textual) :
    s.emitted.length = s.payload.length := by
  simp [State.emitted, State.payloadBits, h]

/-- Emission lengthens the stream by the bits emitted. -/
theorem State.length_emitted_emitBits (s : State) (bs : List Bool) :
    (s.emitBits bs).emitted.length = s.emitted.length + bs.length := by
  cases hf : s.encFmt with
  | packed =>
    rw [State.length_emitted_packed hf, State.length_emitted_packed ((s.emitBits_encFmt bs).trans hf),
      State.emitBits_accN_packed hf, State.length_payload, State.length_payload, State.emitBits_fifo_length_packed hf,
      State.emitBits_outRead]
    omega
  | textual =>
    rw [State.length_emitted_textual hf, State.length_emitted_textual ((s.emitBits_encFmt bs).trans hf),
      State.length_payload, State.length_payload, State.emitBits_fifo_length_textual hf, State.emitBits_outRead]
    omega

/-- A pop moves a byte from the FIFO to the bytes read, so the payload stays. -/
theorem FifoRead.payload_eq {s t : State} (h : FifoRead s t) : t.payload = s.payload := by
  rcases h with ⟨hf, hr⟩ | ⟨b, hf, hr⟩ <;> simp [State.payload, hf, hr]

theorem State.emitted_congr {s t : State} (hp : t.payload = s.payload) (hf : EncoderFrame s t) :
    t.emitted = s.emitted := by
  simp only [State.emitted, State.payloadBits, State.accBits, hp, hf.encFmt, hf.acc, hf.accN]

theorem OutputAgrees.congr {s t : State} (h : OutputAgrees s) (hf : EncoderFrame s t) (hread : FifoRead s t) :
    OutputAgrees t where
  encoding := by rw [hf.phase, hf.outBits, State.emitted_congr hread.payload_eq hf]; exact h.encoding
  packed := by rw [hf.phase, hf.encFmt, hf.outBits, hread.payload_eq]; exact h.packed
  textual := by rw [hf.phase, hf.encFmt, hf.outBits, hread.payload_eq]; exact h.textual

/-- Outside ENCODING and DONE nothing is said of the output. -/
theorem OutputAgrees.of_phase {s : State} (he : s.phase ≠ .encoding) (hd : s.phase ≠ .done) : OutputAgrees s :=
  ⟨fun e => absurd e he, fun e => absurd e hd, fun e => absurd e hd⟩

/-- With the form latched the stream has OUTBITS bits: in CODED none, and in ENCODING those of before. -/
theorem OutputAgrees.length_emitted_latchFormat {s : State} (he : EncoderAgrees s) (h : OutputAgrees s)
    (hq : s.phase = .coded ∨ s.phase = .encoding) (f : Format) :
    (s.latchFormat f).emitted.length = s.outBits.toNat := by
  rcases hq with hq | hq
  · have hn := he.before (.inr (.inr hq))
    cases f <;>
      simp [State.emitted, State.payloadBits, State.payload, State.accBits, hq, hn.fifo, hn.outRead, hn.accN,
        hn.outBits]
  · have hl : s.latchFormat f = s := by
      unfold State.latchFormat
      rw [if_neg (by simp [hq])]
    rw [hl, h.encoding hq]

theorem OutputAgrees.completeEncode {s : State} (he : EncoderAgrees s) (h : OutputAgrees s)
    (hq : s.phase = .coded ∨ s.phase = .encoding) (p : Pending) : OutputAgrees (s.completeEncode p) := by
  have hph := State.completeEncode_phase_of_legal p hq
  have hlen : (s.completeEncode p).emitted.length = (s.completeEncode p).outBits.toNat := by
    rw [State.completeEncode_outBits, he.toNat_outBits_add]
    change ((s.latchFormat p.fmt).emitBits (s.codeBits (argLow p.arg))).emitted.length = _
    rw [State.length_emitted_emitBits, h.length_emitted_latchFormat he hq, State.codeBits_length]
  exact ⟨fun _ => hlen, by rw [hph]; simp, by rw [hph]; simp⟩

/-- FLUSH completes the last byte: ceil(OUTBITS / 8) bytes in packed form, OUTBITS in textual form (R115). -/
theorem OutputAgrees.completeFlush {s : State} (he : EncoderAgrees s) (h : OutputAgrees s)
    (hq : s.phase = .coded ∨ s.phase = .encoding) {p : Pending} (hop : p.op = .flush) :
    OutputAgrees (s.completeFlush p) := by
  have hlatch := h.length_emitted_latchFormat he hq p.fmt
  have hpayload : (s.latchFormat p.fmt).payload.length = s.outRead.length + s.fifo.length := State.length_payload _
  have hflush : (s.completeFlush p).payload.length = s.outRead.length + s.fifo.length + s.bytesNeeded p := by
    rw [State.length_payload, s.completeFlush_fifo_length hop, State.completeFlush_outRead]
    omega
  have hfmt : (s.completeFlush p).encFmt = s.runFormat p := s.completeFlush_encFmt p
  constructor
  case encoding => simp
  case packed =>
    intro _ hf
    have hrun := hfmt.symm.trans hf
    have hneed : s.bytesNeeded p = if 0 < s.accN.toNat then 1 else 0 := by simp [State.bytesNeeded, hop, hrun]
    rw [State.length_emitted_packed (s := s.latchFormat p.fmt) hrun, hpayload, State.latchFormat_accN] at hlatch
    rw [hflush, hneed, State.completeFlush_outBits]
    have := s.accN.isLt
    split <;> omega
  case textual =>
    intro _ hf
    have hrun := hfmt.symm.trans hf
    have hneed : s.bytesNeeded p = 0 := by simp [State.bytesNeeded, hop, hrun]
    rw [State.length_emitted_textual (s := s.latchFormat p.fmt) hrun, hpayload] at hlatch
    rw [hflush, hneed, State.completeFlush_outBits, ← hlatch, Nat.add_zero]

theorem OutputAgrees.complete {s : State} (hs : PhaseAgrees s) (he : EncoderAgrees s) (h : OutputAgrees s) {p : Pending}
    (hp : s.pend = some p) : OutputAgrees (s.complete p) := by
  cases hs.completionCase hp with
  | build _ _ ht => rw [ht]; exact .of_phase (by simp) (by simp)
  | gencodes _ _ ht => rw [ht]; exact .of_phase (by simp) (by simp)
  | encode _ hq ht => rw [ht]; exact h.completeEncode he hq p
  | flush hop hq ht => rw [ht]; exact h.completeFlush he hq hop

/-- Every step keeps the length of the output. -/
theorem OutputAgrees.step {s t : State} (hs : PhaseAgrees s) (he : EncoderAgrees s) (h : OutputAgrees s)
    (hstep : step s = .next t) : OutputAgrees t := by
  cases step_effect hstep with
  | started _ ht _ => exact ht.outputAgrees
  | quiet hread ht =>
    obtain ⟨_, _, _, _, _, _, _, rfl⟩ := ht
    exact h.congr ⟨rfl, rfl, rfl, rfl, rfl, rfl⟩ hread
  | raised w v e _ _ ht =>
    obtain ⟨_, _, rfl⟩ := ht
    exact .of_phase (by simp) (by simp)
  | counted w a _ _ _ _ hp _ ht =>
    obtain ⟨_, _, rfl⟩ := ht
    exact .of_phase (by simp [hp]) (by simp [hp])
  | deferred w op a _ _ _ _ _ ht =>
    obtain ⟨_, _, rfl⟩ := ht
    exact h.congr ⟨rfl, rfl, rfl, rfl, rfl, rfl⟩ (.inl ⟨rfl, rfl⟩)
  | completed p _ hp _ ht =>
    obtain ⟨_, rfl⟩ := ht
    exact (h.complete hs he hp).congr ⟨rfl, rfl, rfl, rfl, rfl, rfl⟩ (.inl ⟨rfl, rfl⟩)

end Sys2Proof.Machine
end

section
/-! The tree of the counts: its nodes, which of them is whose child, and the paths to its leaves
(spec/42_tree_builder.md rules R96 to R99, spec/43_code_generator.md rule R105). -/

namespace Sys2Proof.Machine

/-! ## The working list -/

/-- The element of the working list for a counted symbol (R96, R97). -/
def State.leafItem (s : State) (y : Symbol) : QueueItem := { weight := (s.freqAt y).toNat, index := leafIndex y }

theorem State.leaves_eq (s : State) : s.leaves = s.countedSymbols.map s.leafItem := by
  unfold State.leaves State.countedSymbols
  induction allSymbols with
  | nil => rfl
  | cons y ys ih => by_cases hy : s.freqAt y = 0#32 <;> simp [hy, ih, State.leafItem]

theorem foldr_insertByKey_perm (q : List QueueItem) : (q.foldr insertByKey []).Perm q := by
  induction q with
  | nil => exact .refl _
  | cons x q ih => exact (insertByKey_perm x _).trans (ih.cons x)

/-- The working list starts with the leaves of the counted symbols (R96). -/
theorem State.initialQueue_perm (s : State) : s.initialQueue.Perm (s.countedSymbols.map s.leafItem) := by
  rw [← s.leaves_eq]
  exact foldr_insertByKey_perm _

theorem State.length_initialQueue (s : State) : s.initialQueue.length = s.countedSymbols.length := by
  simpa using s.initialQueue_perm.length_eq

/-- The indices in the working list at the start are the counted leaves. -/
theorem State.initialQueue_index_perm (s : State) :
    (s.initialQueue.map QueueItem.index).Perm (s.countedSymbols.map leafIndex) := by
  simpa [State.leafItem, Function.comp_def] using s.initialQueue_perm.map QueueItem.index

/-! ## The merge loop -/

/-- The children of the entries made, merge by merge, left before right. -/
def childIndices (es : List NodeEntry) : List NodeIndex := es.flatMap fun e => [e.left, e.right]

/-- Every node but those left in Q is the child of exactly one merge (R99): counted with repetition, the nodes left and
the children made are the nodes Q started with and the nodes made. -/
theorem mergeLoop_perm (fuel : Nat) : ∀ (k : Nat) (q : List QueueItem),
    ((mergeLoop fuel k q).2.map QueueItem.index ++ childIndices (mergeLoop fuel k q).1).Perm
      (q.map QueueItem.index ++ (List.range (mergeLoop fuel k q).1.length).map fun j => internalIndex (k + j)) := by
  induction fuel with
  | zero =>
    intro k q
    simp [mergeLoop_zero, childIndices]
  | succ fuel ih =>
    intro k q
    match q with
    | [] => simp [mergeLoop_nil, childIndices]
    | [x] => simp [mergeLoop_one, childIndices]
    | a :: b :: rest =>
      have hrec := ih (k + 1) (insertByKey { weight := a.weight + b.weight, index := internalIndex k } rest)
      have hins :=
        (insertByKey_perm { weight := a.weight + b.weight, index := internalIndex k } rest).map QueueItem.index
      rw [mergeLoop_cons]
      simp only [List.length_cons, List.range_succ_eq_map, List.map_cons, List.map_map]
      refine List.perm_iff_count.mpr fun n => ?_
      have hcount := hrec.count_eq n
      have hnew := hins.count_eq n
      simp only [childIndices, List.flatMap_cons, List.count_append, List.map_cons, List.count_cons, Function.comp_def,
        Nat.succ_eq_add_one, Nat.add_right_comm k 1, ← Nat.add_assoc, List.count_nil] at hcount hnew ⊢
      simp only [Nat.add_zero] at *
      omega

/-- Children have lower indices than their parent (R99). -/
theorem mergeLoop_child_lt (fuel : Nat) : ∀ (k : Nat) (q : List QueueItem), k + q.length ≤ 257 →
    (∀ x ∈ q, x.index.toNat < 256 + k) → ∀ (j : Nat) (e : NodeEntry), (mergeLoop fuel k q).1[j]? = some e →
      e.left.toNat < 256 + (k + j) ∧ e.right.toNat < 256 + (k + j) := by
  induction fuel with
  | zero => simp [mergeLoop_zero]
  | succ fuel ih =>
    intro k q hlen hq
    match q with
    | [] => simp [mergeLoop_nil]
    | [x] => simp [mergeLoop_one]
    | a :: b :: rest =>
      simp only [List.length_cons] at hlen
      have ha := hq a (by simp)
      have hb := hq b (by simp)
      intro j e he
      rw [mergeLoop_cons] at he
      cases j with
      | zero =>
        cases he
        exact ⟨ha, hb⟩
      | succ j =>
        have hnew : ∀ x ∈ insertByKey { weight := a.weight + b.weight, index := internalIndex k } rest,
            x.index.toNat < 256 + (k + 1) := by
          intro x hx
          rcases List.mem_cons.mp ((insertByKey_perm _ _).mem_iff.mp hx) with rfl | hx
          · rw [toNat_internalIndex (by omega)]
            omega
          · have := hq x (by simp [hx])
            omega
        have hrec := ih (k + 1) _ (by rw [length_insertByKey]; omega) hnew j e he
        omega

/-! ## The tree BUILD makes -/

/-- The nodes of the tree of the counts: the counted leaves, and one internal node fewer (R28, R29, R99). -/
def State.treeNodes (s : State) : List NodeIndex :=
  s.countedSymbols.map leafIndex ++ (List.range (s.countedSymbols.length - 1)).map internalIndex

theorem State.mem_countedSymbols (s : State) (y : Symbol) : y ∈ s.countedSymbols ↔ s.freqAt y ≠ 0#32 := by
  simp [State.countedSymbols]

theorem State.leafIndex_mem_treeNodes (s : State) (y : Symbol) : leafIndex y ∈ s.treeNodes ↔ s.freqAt y ≠ 0#32 := by
  have hint : ∀ j < s.countedSymbols.length - 1, internalIndex j ≠ leafIndex y := fun j hj e => by
    have := s.length_countedSymbols_le
    have := congrArg argSymbol e
    rw [argSymbol_internalIndex (by omega), argSymbol_leafIndex] at this
    cases this
  simp only [State.treeNodes, List.mem_append, List.mem_map, leafIndex_inj, exists_eq_right, State.mem_countedSymbols,
    List.mem_range]
  exact ⟨fun h => h.resolve_right fun ⟨j, hj, e⟩ => hint j hj e, .inl⟩

theorem State.internalIndex_mem_treeNodes (s : State) {k : Nat} (hk : k < 255) :
    internalIndex k ∈ s.treeNodes ↔ k + 1 < s.countedSymbols.length := by
  have hle := s.length_countedSymbols_le
  simp only [State.treeNodes, List.mem_append, List.mem_map, List.mem_range]
  constructor
  · rintro (⟨y, _, e⟩ | ⟨j, hj, e⟩)
    · have := congrArg argSymbol e
      rw [argSymbol_internalIndex (by omega), argSymbol_leafIndex] at this
      cases this
    · have := congrArg BitVec.toNat e
      rw [toNat_internalIndex (by omega), toNat_internalIndex (by omega)] at this
      omega
  · exact fun h => .inr ⟨k, by omega, rfl⟩

/-- Index 511 names no node (R28). -/
theorem State.toNat_lt_of_mem_treeNodes {s : State} {n : NodeIndex} (h : n ∈ s.treeNodes) : n.toNat < 511 := by
  have hle := s.length_countedSymbols_le
  simp only [State.treeNodes, List.mem_append, List.mem_map, List.mem_range] at h
  rcases h with ⟨y, _, rfl⟩ | ⟨j, hj, rfl⟩
  · have := y.isLt
    rw [toNat_leafIndex]
    omega
  · rw [toNat_internalIndex (by omega)]
    omega

section
variable {s : State} (hne : s.countedSymbols ≠ [])
include hne

theorem State.initialQueue_ne_nil : s.initialQueue ≠ [] := fun e => by
  have := s.length_initialQueue
  rw [e] at this
  exact hne (List.length_eq_zero_iff.mp this.symm)

/-- One internal node fewer than leaves (R99). -/
theorem State.length_buildTree : s.buildTree.1.length + 1 = s.countedSymbols.length := by
  have h := (mergeLoop_length s.initialQueue.length 0 s.initialQueue (Nat.le_succ _)
    (State.initialQueue_ne_nil hne)).1
  exact h.trans s.length_initialQueue

/-- One node is left at the end (R99). -/
theorem State.buildTree_root : ∃ x, s.buildTree.2 = [x] :=
  List.length_eq_one_iff.mp
    (mergeLoop_length s.initialQueue.length 0 s.initialQueue (Nat.le_succ _) (State.initialQueue_ne_nil hne)).2

/-- The root and the children of the entries are the nodes of the tree, each once (R99). -/
theorem State.buildTree_perm :
    (s.buildTree.2.map QueueItem.index ++ childIndices s.buildTree.1).Perm s.treeNodes := by
  have hlen : s.buildTree.1.length = s.countedSymbols.length - 1 := by
    have := State.length_buildTree hne
    omega
  have h := mergeLoop_perm s.initialQueue.length 0 s.initialQueue
  simp only [Nat.zero_add] at h
  change (s.buildTree.2.map QueueItem.index ++ childIndices s.buildTree.1).Perm
    (_ ++ (List.range s.buildTree.1.length).map internalIndex) at h
  rw [hlen] at h
  exact h.trans (s.initialQueue_index_perm.append_right _)

end

/-- The children of the entry of the (j+1)-th merge have lower indices (R99). -/
theorem State.buildTree_child_lt {s : State} {j : Nat} {e : NodeEntry} (h : s.buildTree.1[j]? = some e) :
    e.left.toNat < 256 + j ∧ e.right.toNat < 256 + j := by
  have hleaf : ∀ x ∈ s.initialQueue, x.index.toNat < 256 + 0 := fun x hx => by
    obtain ⟨y, _, rfl⟩ := List.mem_map.mp (s.initialQueue_perm.mem_iff.mp hx)
    have := y.isLt
    simpa [State.leafItem] using this
  have hlen : 0 + s.initialQueue.length ≤ 257 := by
    have := s.length_countedSymbols_le
    rw [s.length_initialQueue]
    omega
  simpa using mergeLoop_child_lt s.initialQueue.length 0 s.initialQueue hlen hleaf j e h

end Sys2Proof.Machine
end

section
/-! The tree stored in NODE and ROOT, and the paths to its leaves (spec/10_state.md rules R27 to R29,
spec/43_code_generator.md rule R105). -/

namespace Sys2Proof.Machine

/-- The child a bit leads to: "0" is left and "1" is right (R104). -/
def NodeEntry.child (e : NodeEntry) (b : Bool) : NodeIndex := if b then e.right else e.left

/-- The leaf that a path leads to from a node, if it leads to one. -/
def State.leafAt (s : State) : NodeIndex → List Bool → Option Symbol
  | n, [] => argSymbol n
  | n, b :: p =>
    match s.nodeAt n with
    | some e => s.leafAt (e.child b) p
    | none => none

@[simp] theorem State.leafAt_nil (s : State) (n : NodeIndex) : s.leafAt n [] = argSymbol n := rfl

theorem State.leafAt_cons_some {s : State} {n : NodeIndex} {e : NodeEntry} (h : s.nodeAt n = some e) (b : Bool)
    (p : List Bool) : s.leafAt n (b :: p) = s.leafAt (e.child b) p := by
  simp [State.leafAt, h]

theorem State.leafAt_cons_none {s : State} {n : NodeIndex} (h : s.nodeAt n = none) (b : Bool) (p : List Bool) :
    s.leafAt n (b :: p) = none := by
  simp [State.leafAt, h]

/-- A leaf has no entry (R29). -/
theorem State.nodeAt_eq_none {n : NodeIndex} {y : Symbol} (s : State) (h : argSymbol n = some y) :
    s.nodeAt n = none := by
  rw [argSymbol_eq_some.mp h, s.nodeAt_leafIndex]

/-- From a leaf only the empty path leads to a leaf, itself. -/
theorem State.leafAt_of_leaf {s : State} {n : NodeIndex} {y z : Symbol} {p : List Bool} (h : argSymbol n = some z)
    (hp : s.leafAt n p = some y) : y = z ∧ p = [] := by
  cases p with
  | nil => exact ⟨Option.some.inj (hp.symm.trans h), rfl⟩
  | cons b p =>
    rw [State.leafAt_cons_none (s.nodeAt_eq_none h)] at hp
    cases hp

/-- The walk assigns to a leaf exactly the paths that lead to it, within its fuel (R105). -/
theorem State.mem_walk {s : State} {fuel : Nat} {n : NodeIndex} {p q : List Bool} {y : Symbol} :
    (y, q) ∈ s.walk fuel n p ↔ ∃ r, q = p ++ r ∧ r.length < fuel ∧ s.leafAt n r = some y := by
  induction fuel generalizing n p with
  | zero => simp [State.walk_zero]
  | succ fuel ih =>
    unfold State.walk
    cases hn : argSymbol n with
    | some z =>
      simp only [List.mem_singleton, Prod.mk.injEq]
      constructor
      · rintro ⟨rfl, rfl⟩
        exact ⟨[], by simp, Nat.succ_pos _, hn⟩
      · rintro ⟨r, rfl, _, hr⟩
        obtain ⟨rfl, rfl⟩ := State.leafAt_of_leaf hn hr
        simp
    | none =>
      cases he : s.nodeAt n with
      | none =>
        simp only [List.not_mem_nil, false_iff]
        rintro ⟨r, _, _, hr⟩
        cases r with
        | nil => simp [hn] at hr
        | cons b r => simp [State.leafAt_cons_none he] at hr
      | some e =>
        simp only [List.mem_append, ih]
        constructor
        · rintro (⟨r, rfl, hlen, hr⟩ | ⟨r, rfl, hlen, hr⟩)
          · exact ⟨false :: r, by simp, by simpa using hlen, by rwa [State.leafAt_cons_some he]⟩
          · exact ⟨true :: r, by simp, by simpa using hlen, by rwa [State.leafAt_cons_some he]⟩
        · rintro ⟨r, rfl, hlen, hr⟩
          cases r with
          | nil => simp [hn] at hr
          | cons b r =>
            rw [State.leafAt_cons_some he] at hr
            cases b with
            | false => exact .inl ⟨r, by simp, by simpa using hlen, hr⟩
            | true => exact .inr ⟨r, by simp, by simpa using hlen, hr⟩

section
variable {s : State} (hc : CountsAgree s) (ht : TreeAgrees s) (hv : s.treeV = true)
include hc ht hv

theorem TreeAgrees.countedSymbols_ne_nil : s.countedSymbols ≠ [] := fun e => by
  have h := ht.leaves hv
  rw [hc.nsym, e] at h
  exact absurd h (by simp)

/-- The entries in the tree are those BUILD's merges make. -/
theorem TreeAgrees.buildTree_getElem? (k : Fin 255) (hk : k.val + 1 < s.countedSymbols.length) :
    s.buildTree.1[k.val]? = some s.node[k] := ht.nodes hv k (by rwa [hc.nsym])

/-- The root and the children of the entries in the tree are the nodes of the tree, each once (R99). -/
theorem TreeAgrees.root_cons_children_perm : (s.root :: childIndices s.buildTree.1).Perm s.treeNodes := by
  have hne := ht.countedSymbols_ne_nil hc hv
  obtain ⟨x, hx⟩ := State.buildTree_root hne
  have h := State.buildTree_perm hne
  have hroot := ht.root hv
  rw [hx] at h hroot
  rw [hroot]
  exact h

theorem TreeAgrees.root_mem : s.root ∈ s.treeNodes :=
  (ht.root_cons_children_perm hc hv).mem_iff.mp List.mem_cons_self

/-- A child of a node of the tree is a node of the tree, with a lower index. -/
theorem TreeAgrees.child_mem {n : NodeIndex} {e : NodeEntry} (hn : n ∈ s.treeNodes) (he : s.nodeAt n = some e)
    (b : Bool) : e.child b ∈ s.treeNodes ∧ (e.child b).toNat < n.toNat := by
  obtain ⟨k, rfl, rfl⟩ := State.nodeAt_eq_some he
  have hk := (s.internalIndex_mem_treeNodes k.isLt).mp hn
  have hget := ht.buildTree_getElem? hc hv k hk
  constructor
  · refine (ht.root_cons_children_perm hc hv).mem_iff.mp (List.mem_cons_of_mem _ ?_)
    refine List.mem_flatMap.mpr ⟨_, List.mem_of_getElem? hget, ?_⟩
    cases b <;> simp [NodeEntry.child]
  · have hlt := State.buildTree_child_lt hget
    rw [toNat_internalIndex (by omega)]
    cases b
    · exact hlt.1
    · exact hlt.2

/-- Every node of the tree but the root is a child of another (R99). -/
theorem TreeAgrees.exists_parent {m : NodeIndex} (hm : m ∈ s.treeNodes) (hr : m ≠ s.root) :
    ∃ n e b, n ∈ s.treeNodes ∧ s.nodeAt n = some e ∧ e.child b = m := by
  have hmem := (ht.root_cons_children_perm hc hv).mem_iff.mpr hm
  obtain ⟨e, he, hchild⟩ := List.mem_flatMap.mp ((List.mem_cons.mp hmem).resolve_left hr)
  obtain ⟨j, hj, rfl⟩ := List.mem_iff_getElem.mp he
  have hlen := State.length_buildTree (ht.countedSymbols_ne_nil hc hv)
  have hle := s.length_countedSymbols_le
  have hk : j < 255 := by omega
  have hget := ht.buildTree_getElem? hc hv ⟨j, hk⟩ (by simp only; omega)
  rw [List.getElem?_eq_getElem hj] at hget
  have hnode : s.nodeAt (internalIndex j) = some s.buildTree.1[j] := by
    rw [Option.some.inj hget]
    exact s.nodeAt_internalIndex ⟨j, hk⟩
  have hin : internalIndex j ∈ s.treeNodes := (s.internalIndex_mem_treeNodes hk).mpr (by omega)
  simp only [List.mem_cons, List.not_mem_nil, or_false] at hchild
  rcases hchild with rfl | rfl
  · exact ⟨_, _, false, hin, hnode, rfl⟩
  · exact ⟨_, _, true, hin, hnode, rfl⟩

/-- A path from a node of the tree leads to a counted leaf, and indices fall along it. -/
theorem TreeAgrees.leafAt_sound {y : Symbol} {p : List Bool} {n : NodeIndex} (hn : n ∈ s.treeNodes)
    (hp : s.leafAt n p = some y) : s.freqAt y ≠ 0#32 ∧ p.length ≤ n.toNat - 255 := by
  induction p generalizing n with
  | nil =>
    rw [State.leafAt_nil, argSymbol_eq_some] at hp
    subst hp
    exact ⟨(s.leafIndex_mem_treeNodes y).mp hn, Nat.zero_le _⟩
  | cons b p ih =>
    cases he : s.nodeAt n with
    | none =>
      rw [State.leafAt_cons_none he] at hp
      cases hp
    | some e =>
      rw [State.leafAt_cons_some he] at hp
      obtain ⟨hmem, hlt⟩ := ht.child_mem hc hv hn he b
      obtain ⟨hfreq, hlen⟩ := ih hmem hp
      obtain ⟨k, rfl, _⟩ := State.nodeAt_eq_some he
      rw [toNat_internalIndex (by omega)] at hlt ⊢
      exact ⟨hfreq, by rw [List.length_cons]; omega⟩

/-- Whatever leaf a node of the tree leads to, the root leads to: by induction up the tree, as a parent's index is
higher. -/
theorem TreeAgrees.leafAt_root {y : Symbol} {m : NodeIndex} {p : List Bool} (hm : m ∈ s.treeNodes)
    (hp : s.leafAt m p = some y) : ∃ q, s.leafAt s.root q = some y := by
  by_cases hr : m = s.root
  · exact ⟨p, hr ▸ hp⟩
  · obtain ⟨n, e, b, hn, he, rfl⟩ := ht.exists_parent hc hv hm hr
    have hlt := (ht.child_mem hc hv hn he b).2
    have := n.isLt
    exact TreeAgrees.leafAt_root hn (p := b :: p) (by rwa [State.leafAt_cons_some he])
termination_by 2 ^ 9 - m.toNat

/-- Every counted leaf is reached from the root. -/
theorem TreeAgrees.exists_path {y : Symbol} (hy : s.freqAt y ≠ 0#32) : ∃ q, s.leafAt s.root q = some y :=
  ht.leafAt_root hc hv ((s.leafIndex_mem_treeNodes y).mpr hy) (p := []) (argSymbol_leafIndex y)

/-- The assignments of GENCODES: codes of 1 to 255 bits, to counted symbols only (R99, R105, R106). -/
theorem TreeAgrees.assignments_sound {y : Symbol} {q : List Bool} (h : (y, q) ∈ s.assignments) :
    s.freqAt y ≠ 0#32 ∧ q ≠ [] ∧ q.length ≤ 255 := by
  have hroot := ht.root_mem hc hv
  unfold State.assignments at h
  cases hr : argSymbol s.root with
  | some z =>
    rw [hr] at h
    obtain ⟨rfl, rfl⟩ : y = z ∧ q = [false] := by simpa using h
    exact ⟨(ht.leafAt_sound hc hv hroot (p := []) hr).1, by simp, by simp⟩
  | none =>
    rw [hr] at h
    obtain ⟨r, rfl, _, hleaf⟩ := State.mem_walk.mp h
    obtain ⟨hfreq, hlen⟩ := ht.leafAt_sound hc hv hroot hleaf
    have := State.toNat_lt_of_mem_treeNodes hroot
    refine ⟨hfreq, ?_, by omega⟩
    rintro rfl
    simp [hr] at hleaf

/-- Every counted symbol is assigned a code (R105, R106). -/
theorem TreeAgrees.assignments_complete {y : Symbol} (hy : s.freqAt y ≠ 0#32) : ∃ q, (y, q) ∈ s.assignments := by
  obtain ⟨q, hq⟩ := ht.exists_path hc hv hy
  unfold State.assignments
  cases hr : argSymbol s.root with
  | some z =>
    obtain ⟨rfl, -⟩ := State.leafAt_of_leaf hr hq
    exact ⟨[false], List.mem_singleton_self _⟩
  | none =>
    have hroot := ht.root_mem hc hv
    have hlen := (ht.leafAt_sound hc hv hroot hq).2
    have := State.toNat_lt_of_mem_treeNodes hroot
    exact ⟨q, State.mem_walk.mpr ⟨q, rfl, by omega, hq⟩⟩

end

theorem mem_of_assignedCode {as : List (Symbol × List Bool)} {y : Symbol} {q : List Bool}
    (h : assignedCode as y = some q) : (y, q) ∈ as := by
  obtain ⟨l, r, hl, _⟩ := List.lookup_eq_some_iff.mp h
  exact List.mem_reverse.mp (by simp [hl])

theorem not_mem_of_assignedCode {as : List (Symbol × List Bool)} {y : Symbol} (h : assignedCode as y = none)
    (q : List Bool) : (y, q) ∉ as := fun hm => by
  simpa using List.lookup_eq_none_iff.mp h (y, q) (List.mem_reverse.mpr hm)

end Sys2Proof.Machine
end

section
/-! BUILD stores the tree of the counts and every other step keeps it (spec/10_state.md rules R27 to R29 and R45). -/

namespace Sys2Proof.Machine

theorem TreeAgrees.of_noTree {s : State} (hv : s.treeV = false) (hr : s.root = 0#9) (hp : s.pend = none) :
    TreeAgrees s where
  leaves := by simp [hv]
  nodes := by simp [hv]
  root := by simp [hv]
  noTree := fun _ => hr
  pend := by simp [hp]

/-- The tree's agreement reads FREQ, NSYM, TREE_V, ROOT, NODE and a pending BUILD. -/
theorem TreeAgrees.congr {s t : State} (h : TreeAgrees s) (hf : t.freq = s.freq) (hn : t.nsym = s.nsym)
    (hv : t.treeV = s.treeV) (hr : t.root = s.root) (hnode : t.node = s.node)
    (hpend : ∀ p, t.pend = some p → p.op = .build → t.nsym ≠ 0#9) : TreeAgrees t where
  leaves := by rw [hv, hn]; exact h.leaves
  nodes := by rw [hv, hn, State.buildTree_congr hf, hnode]; exact h.nodes
  root := by rw [hv, hr, State.buildTree_congr hf]; exact h.root
  noTree := by rw [hv, hr]; exact h.noTree
  pend := hpend

/-- BUILD's completion stores the entries its merges make, and the last node of Q as the root (R98). -/
theorem TreeAgrees.completeBuild {s : State} (hc : CountsAgree s) (h : TreeAgrees s) (hv : s.treeV = false)
    (hn : s.nsym ≠ 0#9) : TreeAgrees s.completeBuild := by
  have hpos : 0 < s.nsym.toNat := Nat.pos_of_ne_zero fun e => hn (BitVec.eq_of_toNat_eq e)
  have hne : s.countedSymbols ≠ [] := fun e => by
    rw [hc.nsym, e] at hpos
    exact absurd hpos (by simp)
  have htree : s.completeBuild.buildTree = s.buildTree := State.buildTree_congr rfl
  constructor
  case leaves => exact fun _ => hpos
  case nodes =>
    intro _ k hk
    have hlen := State.length_buildTree hne
    rw [← hc.nsym] at hlen
    have hget : s.buildTree.1[k.val]? = some (s.buildTree.1[k.val]'(by rw [State.completeBuild_nsym] at hk; omega)) :=
      List.getElem?_eq_getElem _
    rw [htree, State.completeBuild_node, nodesFrom_getElem _ _ k hget, hget]
  case root =>
    intro _
    rw [htree, State.completeBuild_root, h.noTree hv]
  case noTree => simp
  case pend => simp

theorem TreeAgrees.complete {s : State} (hs : PhaseAgrees s) (hc : CountsAgree s) (h : TreeAgrees s) {p : Pending}
    (hp : s.pend = some p) : TreeAgrees (s.complete p) := by
  cases hs.completionCase hp with
  | build hop hq ht =>
    rw [ht]
    exact h.completeBuild hc (hs.valid_of_count hq).1 (h.pend p hp hop)
  | gencodes _ _ ht => rw [ht]; exact h.congr (by simp) (by simp) (by simp) (by simp) (by simp) (by simp)
  | encode _ _ ht => rw [ht]; exact h.congr (by simp) (by simp) (by simp) (by simp) (by simp) (by simp)
  | flush _ _ ht => rw [ht]; exact h.congr (by simp) (by simp) (by simp) (by simp) (by simp) (by simp)

/-- BUILD's precheck passes only with a symbol counted (R98). -/
theorem nsym_ne_zero_of_buildPrecheck {s : State} (h : buildPrecheck s = none) : s.nsym ≠ 0#9 := fun e => by
  simp [buildPrecheck, e] at h

/-- Every step keeps the stored tree in agreement with the counts. -/
theorem TreeAgrees.step {s t : State} (hs : PhaseAgrees s) (hc : CountsAgree s) (h : TreeAgrees s)
    (hstep : step s = .next t) : TreeAgrees t := by
  cases step_effect hstep with
  | started _ ht _ => exact ht.treeAgrees
  | quiet _ ht =>
    obtain ⟨_, _, _, _, _, _, _, rfl⟩ := ht
    exact h.congr rfl rfl rfl rfl rfl h.pend
  | raised w v e _ _ ht =>
    obtain ⟨_, _, rfl⟩ := ht
    exact h.congr rfl rfl rfl rfl rfl (by simp)
  | counted w a _ _ _ hb hp _ ht =>
    obtain ⟨_, _, rfl⟩ := ht
    have hv := (hs.valid_of_count hp).1
    exact .of_noTree hv (h.noTree hv) (by simpa [State.busy] using hb)
  | deferred w op a _ _ _ _ hpre ht =>
    obtain ⟨_, _, rfl⟩ := ht
    refine h.congr rfl rfl rfl rfl rfl fun p hp hop => ?_
    cases hp
    cases hop
    exact nsym_ne_zero_of_buildPrecheck hpre
  | completed p _ hp _ ht =>
    obtain ⟨_, rfl⟩ := ht
    have hcomp := h.complete hs hc hp
    exact hcomp.congr rfl rfl rfl rfl rfl hcomp.pend

end Sys2Proof.Machine
end

section
/-! GENCODES stores the code table of the tree and every other step keeps it (spec/10_state.md rules R30 to R33 and
R45). -/

namespace Sys2Proof.Machine

theorem CodesAgree.of_noCodes {s : State} (hv : s.codesV = false) (hl : ∀ y, s.lenAt y = 0#8) (hw : s.wsum = 0#64)
    (hm : s.maxLen = 0#8) : CodesAgree s where
  table := by simp [hv]
  complete := by simp [hv]
  wsum := by simp [hv]
  maxLen := by simp [hv]
  noCodes := fun _ => ⟨hl, hw, hm⟩

/-- What the code table's agreement reads. -/
structure CodesFrame (s t : State) : Prop where
  codesV : t.codesV = s.codesV
  freq : t.freq = s.freq
  root : t.root = s.root
  node : t.node = s.node
  len : t.len = s.len
  code : t.code = s.code
  wsum : t.wsum = s.wsum
  maxLen : t.maxLen = s.maxLen

theorem CodesAgree.congr {s t : State} (h : CodesAgree s) (hf : CodesFrame s t) : CodesAgree t := by
  have ha : t.assignments = s.assignments := State.assignments_congr hf.node hf.root
  have hl : t.lenAt = s.lenAt := by funext y; simp only [State.lenAt, hf.len]
  have hcode : t.codeAt = s.codeAt := by funext y; simp only [State.codeAt, hf.code]
  have hfreq : t.freqAt = s.freqAt := funext (State.freqAt_congr hf.freq)
  constructor
  case table => rw [hf.codesV, ha, hl, hcode]; exact h.table
  case complete => rw [hf.codesV, hl, hfreq]; exact h.complete
  case wsum => rw [hf.codesV, hf.wsum, State.weightedLength, hl, hfreq]; exact h.wsum
  case maxLen => rw [hf.codesV, hf.maxLen, State.longestCode, hl]; exact h.maxLen
  case noCodes => rw [hf.codesV, hl, hf.wsum, hf.maxLen]; exact h.noCodes

/-- WSUM holds the exact sum: 256 products of a 32-bit and an 8-bit value. -/
theorem State.weightedLength_lt (s : State) : s.weightedLength < 2 ^ 64 := by
  have hterm : ∀ x ∈ allSymbols.map fun y => (s.freqAt y).toNat * (s.lenAt y).toNat, x ≤ 2 ^ 32 * 2 ^ 8 := by
    intro x hx
    obtain ⟨y, _, rfl⟩ := List.mem_map.mp hx
    exact Nat.mul_le_mul (s.freqAt y).isLt.le (s.lenAt y).isLt.le
  have hsum := List.sum_le_card_nsmul _ _ hterm
  rw [List.length_map, length_allSymbols] at hsum
  exact hsum.trans_lt (by decide)

/-- MAXLEN.LEN holds the largest length. -/
theorem State.longestCode_lt (s : State) : s.longestCode < 2 ^ 8 :=
  List.foldlRecOn allSymbols _ (motive := (· < 2 ^ 8)) (by decide) fun _ hm y _ => max_lt hm (s.lenAt y).isLt

/-- GENCODES' completion stores the code of every counted symbol and of no other (R105). -/
theorem TreeAgrees.codesAgree_completeGencodes {s : State} (hc : CountsAgree s) (ht : TreeAgrees s)
    (hv : s.treeV = true) : CodesAgree s.completeGencodes := by
  have hlenAt : ∀ y q, assignedCode s.assignments y = some q → (s.completeGencodes.lenAt y).toNat = q.length := by
    intro y q hq
    obtain ⟨_, _, hle⟩ := ht.assignments_sound hc hv (mem_of_assignedCode hq)
    rw [State.completeGencodes_lenAt, State.lenAt_withCodes, hq]
    exact Nat.mod_eq_of_lt (Nat.lt_succ_of_le hle)
  have hlenAt_none : ∀ y, assignedCode s.assignments y = none → s.completeGencodes.lenAt y = 0#8 := by
    intro y hq
    rw [State.completeGencodes_lenAt, State.lenAt_withCodes, hq]
  constructor
  case table =>
    intro _ y
    rw [State.assignments_completeGencodes]
    cases hq : assignedCode s.assignments y with
    | none => exact hlenAt_none y hq
    | some q =>
      obtain ⟨_, hne, _⟩ := ht.assignments_sound hc hv (mem_of_assignedCode hq)
      refine ⟨hlenAt y q hq, ?_, hne⟩
      rw [State.completeGencodes_codeAt, State.codeAt_withCodes, hq, Option.getD_some]
  case complete =>
    intro _ y
    rw [State.completeGencodes_freqAt]
    cases hq : assignedCode s.assignments y with
    | none =>
      refine iff_of_true (hlenAt_none y hq) (by_contra fun hy => ?_)
      obtain ⟨q, hm⟩ := ht.assignments_complete hc hv hy
      exact not_mem_of_assignedCode hq q hm
    | some q =>
      obtain ⟨hfreq, hne, _⟩ := ht.assignments_sound hc hv (mem_of_assignedCode hq)
      refine iff_of_false (fun e => hne (List.length_eq_zero_iff.mp ?_)) hfreq
      rw [← hlenAt y q hq, e]
      rfl
  case wsum => exact fun _ => Nat.mod_eq_of_lt (State.weightedLength_lt _)
  case maxLen => exact fun _ => Nat.mod_eq_of_lt (State.longestCode_lt _)
  case noCodes => simp

theorem CodesAgree.completion {s : State} (hs : PhaseAgrees s) (hc : CountsAgree s) (ht : TreeAgrees s)
    (h : CodesAgree s) {p : Pending} (hp : s.pend = some p) : CodesAgree (s.complete p) := by
  cases hs.completionCase hp with
  | build _ hq ht =>
    rw [ht]
    have hv := (hs.valid_of_count hq).2
    obtain ⟨hl, hw, hm⟩ := h.noCodes hv
    exact .of_noCodes hv hl hw hm
  | gencodes _ hq e =>
    rw [e]
    exact ht.codesAgree_completeGencodes hc (hs.valid_of_built hq).1
  | encode _ _ ht => rw [ht]; exact h.congr (by constructor <;> simp)
  | flush _ _ ht => rw [ht]; exact h.congr (by constructor <;> simp)

/-- Every step keeps the stored code table in agreement with the tree. -/
theorem CodesAgree.step {s t : State} (hs : PhaseAgrees s) (hc : CountsAgree s) (htree : TreeAgrees s)
    (h : CodesAgree s) (hstep : step s = .next t) : CodesAgree t := by
  cases step_effect hstep with
  | started _ ht _ => exact ht.codesAgree
  | quiet _ ht =>
    obtain ⟨_, _, _, _, _, _, _, rfl⟩ := ht
    exact h.congr ⟨rfl, rfl, rfl, rfl, rfl, rfl, rfl, rfl⟩
  | raised w v e _ _ ht =>
    obtain ⟨_, _, rfl⟩ := ht
    exact h.congr ⟨rfl, rfl, rfl, rfl, rfl, rfl, rfl, rfl⟩
  | counted w a _ _ _ _ hp _ ht =>
    obtain ⟨_, _, rfl⟩ := ht
    have hv := (hs.valid_of_count hp).2
    obtain ⟨hl, hw, hm⟩ := h.noCodes hv
    exact .of_noCodes hv hl hw hm
  | deferred w op a _ _ _ _ _ ht =>
    obtain ⟨_, _, rfl⟩ := ht
    exact h.congr ⟨rfl, rfl, rfl, rfl, rfl, rfl, rfl, rfl⟩
  | completed p _ hp _ ht =>
    obtain ⟨_, rfl⟩ := ht
    exact (h.completion hs hc htree hp).congr ⟨rfl, rfl, rfl, rfl, rfl, rfl, rfl, rfl⟩

/-- Settles O59: each part of the invariant is kept with the help of the parts before it. -/
theorem invariantIsKept : Obligations.InvariantIsKept := fun s t h hstep =>
  { counts := countsAreKept s t h.counts hstep
    phase := phaseIsKept s t h.phase hstep
    tree := h.tree.step h.phase h.counts hstep
    codes := h.codes.step h.phase h.counts h.tree hstep
    encoder := encoderIsKept s t h.phase h.encoder hstep
    output := h.output.step h.phase h.encoder hstep }

end Sys2Proof.Machine
end

section
/-! The code-bit stream under emission (spec/10_state.md rule R49, spec/44_encoder.md rules R110 and R116). -/

namespace Sys2Proof.Machine

/-! ## What one bit changes -/

/-- R116 for one bit: below eight bits ACC takes it, the eighth completes a byte, and in textual form it is a byte. -/
theorem State.emitBit_cases (s : State) (b : Bool) :
    (s.encFmt = .packed ∧ s.accN.toNat < 7 ∧
      s.emitBit b = { s with acc := shiftIn s.acc b, accN := s.accN + 1#3 }) ∨
    (s.encFmt = .packed ∧ s.accN.toNat = 7 ∧
      s.emitBit b = { s with fifo := s.fifo ++ [shiftIn s.acc b], acc := 0#8, accN := 0#3 }) ∨
    (s.encFmt = .textual ∧ s.emitBit b = { s with fifo := s.fifo ++ [if b then 0x31#8 else 0x30#8] }) := by
  cases hf : s.encFmt with
  | packed =>
    rw [← hf]
    rcases Nat.lt_or_ge s.accN.toNat 7 with hn | hn
    · exact .inl ⟨rfl, hn, (State.emitBit_packed hf b).trans (State.emitPacked_partial hn b)⟩
    · have h7 : s.accN.toNat = 7 := by have := s.accN.isLt; omega
      exact .inr (.inl ⟨rfl, h7, (State.emitBit_packed hf b).trans (State.emitPacked_full h7 b)⟩)
  | textual =>
    rw [← hf]
    exact .inr (.inr ⟨rfl, State.emitBit_textual hf b⟩)

/-- Emission of a bit writes the FIFO and the accumulator only. -/
theorem State.emitBit_frame (s : State) (b : Bool) :
    ∃ fifo acc accN, s.emitBit b = { s with fifo := fifo, acc := acc, accN := accN } := by
  rcases s.emitBit_cases b with ⟨_, _, h⟩ | ⟨_, _, h⟩ | ⟨_, h⟩ <;> exact ⟨_, _, _, h⟩

/-- Emission of a bit removes nothing from the FIFO. -/
theorem State.fifo_prefix_emitBit (s : State) (b : Bool) : s.fifo <+: (s.emitBit b).fifo := by
  rcases s.emitBit_cases b with ⟨_, _, h⟩ | ⟨_, _, h⟩ | ⟨_, h⟩ <;> rw [h]
  · exact List.prefix_append _ _
  · exact List.prefix_append _ _

/-- The shift of R116 puts the new bit after the `n` bits that ACC holds, for every `n` that leaves room. -/
theorem map_getLsbD_shiftIn (acc : Byte) (b : Bool) {n : Nat} (hn : n ≤ 7) :
    (List.range (n + 1)).map (fun i => (shiftIn acc b).getLsbD (n - i)) =
      (List.range n).map (fun i => acc.getLsbD (n - 1 - i)) ++ [b] := by
  rw [List.range_succ, List.map_append, List.map_singleton, Nat.sub_self, getLsbD_shiftIn, if_pos rfl]
  congr 1
  refine List.map_congr_left fun i hi => ?_
  have hlt : i < n := List.mem_range.1 hi
  rw [getLsbD_shiftIn, if_neg (by omega), decide_eq_true (by omega), Bool.true_and, Nat.sub_right_comm]

theorem State.accBits_of_accN_zero {s : State} (h : s.accN = 0#3) : s.accBits = [] := by simp [State.accBits, h]

/-- One bit goes to the end of the stream, whether it stays in ACC, completes a byte or is a byte. -/
theorem State.emitBit_emitted (s : State) (b : Bool) : (s.emitBit b).emitted = s.emitted ++ [b] := by
  rcases s.emitBit_cases b with ⟨hf, hn, h⟩ | ⟨hf, h7, h⟩ | ⟨hf, h⟩ <;> rw [h]
  · have hs : (s.accN + 1#3).toNat = s.accN.toNat + 1 :=
      BitVec.toNat_add_of_lt (show s.accN.toNat + 1 < 2 ^ 3 by omega)
    simp [State.emitted, State.payloadBits, State.payload, State.accBits, hf, hs, map_getLsbD_shiftIn s.acc b hn.le]
  · have hbyte : byteBits (shiftIn s.acc b) = s.accBits ++ [b] := by
      rw [State.accBits, h7]
      exact map_getLsbD_shiftIn s.acc b le_rfl
    simp [State.emitted, State.payloadBits, State.payload, State.accBits_of_accN_zero, hf, hbyte]
  · cases b <;> simp [State.emitted, State.payloadBits, State.payload, hf]

/-! ## What a list of bits changes -/

theorem State.emitBits_frame (s : State) (bs : List Bool) :
    ∃ fifo acc accN, s.emitBits bs = { s with fifo := fifo, acc := acc, accN := accN } := by
  induction bs generalizing s with
  | nil => exact ⟨_, _, _, rfl⟩
  | cons b bs ih =>
    obtain ⟨_, _, _, hb⟩ := s.emitBit_frame b
    rw [State.emitBits_cons, hb]
    exact ih _

theorem State.fifo_prefix_emitBits (s : State) (bs : List Bool) : s.fifo <+: (s.emitBits bs).fifo := by
  induction bs generalizing s with
  | nil => exact List.prefix_rfl
  | cons b bs ih => exact (s.fifo_prefix_emitBit b).trans (ih _)

theorem State.emitBits_emitted (s : State) (bs : List Bool) : (s.emitBits bs).emitted = s.emitted ++ bs := by
  induction bs generalizing s with
  | nil => rw [State.emitBits_nil, List.append_nil]
  | cons b bs ih => rw [State.emitBits_cons, ih, State.emitBit_emitted, List.append_assoc, List.singleton_append]

/-- In textual form each bit is the byte 0x30 or 0x31 (R116). -/
theorem State.emitBits_fifo_textual {s : State} (h : s.encFmt = .textual) (bs : List Bool) :
    (s.emitBits bs).fifo = s.fifo ++ bs.map fun b => if b then 0x31#8 else 0x30#8 := by
  induction bs generalizing s with
  | nil => simp
  | cons b bs ih =>
    have hb : (s.emitBit b).fifo = s.fifo ++ [if b then 0x31#8 else 0x30#8] :=
      congrArg State.fifo (State.emitBit_textual h b)
    rw [State.emitBits_cons, ih ((s.emitBit_encFmt b).trans h), hb, List.append_assoc, List.map_cons,
      List.singleton_append]

/-- Settles O38: each clause by induction on the bits, from its fact about one bit. -/
theorem emittedBitsAreAppended : Obligations.EmittedBitsAreAppended := by
  intro s bs
  refine ⟨s.emitBits_emitted bs, s.fifo_prefix_emitBits bs, (State.emitBits_fifo_textual · bs), ?_⟩
  obtain ⟨_, _, _, h⟩ := s.emitBits_frame bs
  rw [h]

end Sys2Proof.Machine
end

section
/-! What the host can change before a completion (spec/20_memory.md rule R57, spec/40_host_port.md rule R81). -/

namespace Sys2Proof.Machine

theorem FifoRead.fifo_eq_or_pop {s t : State} (h : FifoRead s t) : t.fifo = s.fifo ∨ ∃ b, s.fifo = b :: t.fifo :=
  h.imp And.left fun ⟨b, hb, _⟩ => ⟨b, hb⟩

/-- Settles O52: a host step that is no CMD write is a register read, which pops at most, or a write that reaches CTRL
at most. -/
theorem pendingShowsTheStateBefore : Obligations.PendingShowsTheStateBefore := by
  intro s t hn hw h
  cases step_cases h with
  | reset hr => cases hn.symm.trans hr
  | engineIdle he => cases hn.symm.trans he
  | completed _ he => cases hn.symm.trans he
  | command w _ hc => exact absurd hc (hw w)
  | illegal w _ hc => exact absurd hc (hw w)
  | read i _ _ _ ht =>
    have hread := s.endTurn.fifoRead_hostRead i
    subst ht
    refine ⟨?_, FifoRead.fifo_eq_or_pop hread⟩
    rw [State.hostRead_eq]
    rfl
  | wrote _ _ _ _ ht =>
    subst ht
    exact ⟨rfl, .inl rfl⟩

end Sys2Proof.Machine
end

/-! # Proofs: spec/30_encoding.md -/

section
/-! Decoding inverts encoding, and the legal words are the well-formed ones (spec/30_encoding.md rules R68 to R72). -/

namespace Sys2Proof

/-! ## The two directions on the fields -/

theorem decodeNoOperand_eq_command_iff {arg : Arg} {i j : Instr} :
    decodeNoOperand arg i = .command j ↔ arg = 0#9 ∧ i = j := by
  simp [decodeNoOperand, ite_eq_iff]

theorem decodeFields_fields (i : Instr) : decodeFields i.fields = .command i := by
  cases i <;> rfl

/-- The tests that lead to an arm of `decodeFields` give RSV and OP, and the arm itself gives ARG. -/
theorem fields_eq_of_decodeFields {f : CommandFields} {i : Instr} (h : decodeFields f = .command i) : i.fields = f := by
  obtain ⟨op, arg, rsv⟩ := f
  simp only [decodeFields, ite_eq_iff, decodeNoOperand_eq_command_iff, Decoded.command.injEq, reduceCtorEq, and_false,
    false_or, or_false, ne_eq, not_not] at h
  obtain ⟨rfl, ⟨rfl, rfl, rfl⟩ | ⟨-, ⟨rfl, rfl, rfl⟩ | ⟨-, ⟨rfl, rfl⟩ | ⟨-, ⟨rfl, rfl⟩ | ⟨-, ⟨rfl, rfl, rfl⟩ |
    ⟨-, ⟨rfl, rfl⟩ | ⟨-, ⟨rfl, rfl, rfl⟩ | ⟨-, ⟨rfl, rfl⟩ | ⟨-, ⟨rfl, rfl⟩ | ⟨-, rfl, rfl, rfl⟩⟩⟩⟩⟩⟩⟩⟩⟩⟩ := h <;> rfl

theorem decode_eq_command_iff {w : Word} {i : Instr} : decode w = .command i ↔ i.fields = CommandFields.ofWord w :=
  ⟨fields_eq_of_decodeFields, fun h => (congrArg decodeFields h).symm.trans (decodeFields_fields i)⟩

/-- Settles O1: decoding inverts encoding on the fields, and a word and its fields determine each other. -/
theorem decodeExactlyInvertsEncode : Obligations.DecodeExactlyInvertsEncode := by
  intro w i
  rw [decode_eq_command_iff, ← ofWord_encodeWord]
  constructor
  · intro h
    rw [← CommandFields.toWord_ofWord (encodeWord i), h, CommandFields.toWord_ofWord]
  · rintro rfl
    rfl

/-! ## Legal words -/

/-- R68's three conditions. -/
theorem CommandFields.wellFormed_iff {f : CommandFields} :
    f.wellFormed = true ↔ f.opKnown = true ∧ f.rsv = 0#15 ∧ (f.takesNoOperand = true → f.arg = 0#9) := by
  simp [CommandFields.wellFormed, CommandFields.rsvZero, CommandFields.argAllowed, and_assoc, imp_iff_not_or]

theorem Instr.fields_wellFormed (i : Instr) : i.fields.wellFormed = true := by
  cases i <;> rfl

/-- Well-formed fields are a command's: OP names the command, and ARG is its operand or 0. -/
theorem CommandFields.exists_fields_eq {f : CommandFields} (h : f.wellFormed = true) : ∃ i : Instr, i.fields = f := by
  obtain ⟨op, arg, rsv⟩ := f
  obtain ⟨hop, hrsv, harg⟩ := wellFormed_iff.mp h
  obtain rfl : rsv = 0#15 := hrsv
  have harg0 (i : Instr) (hi : i.fields = ⟨op, 0#9, 0#15⟩)
      (ht : takesNoOperand ⟨op, arg, 0#15⟩ = true) : i.fields = ⟨op, arg, 0#15⟩ := by
    obtain rfl : arg = 0#9 := harg ht
    exact hi
  simp only [opKnown, List.contains_iff_mem, List.mem_cons, List.not_mem_nil, or_false] at hop
  rcases hop with rfl | rfl | rfl | rfl | rfl | rfl | rfl | rfl | rfl | rfl
  · exact ⟨.nop, harg0 _ rfl rfl⟩
  · exact ⟨.clear, harg0 _ rfl rfl⟩
  · exact ⟨.count arg, rfl⟩
  · exact ⟨.readFreq arg, rfl⟩
  · exact ⟨.build, harg0 _ rfl rfl⟩
  · exact ⟨.readNode arg, rfl⟩
  · exact ⟨.gencodes, harg0 _ rfl rfl⟩
  · exact ⟨.readCode arg, rfl⟩
  · exact ⟨.encode arg, rfl⟩
  · exact ⟨.flush, harg0 _ rfl rfl⟩

/-- The decoder accepts exactly the words that R68 calls legal. -/
theorem exists_decode_iff_wellFormed {w : Word} :
    (∃ i, decode w = .command i) ↔ (CommandFields.ofWord w).wellFormed = true := by
  simp only [decode_eq_command_iff]
  exact ⟨fun ⟨i, hi⟩ => hi ▸ i.fields_wellFormed, CommandFields.exists_fields_eq⟩

theorem contains_iff_toNat_mem {n : Nat} {x : BitVec n} {l : List (BitVec n)} :
    l.contains x = true ↔ x.toNat ∈ l.map BitVec.toNat :=
  List.contains_iff_mem.trans (List.mem_map_of_injective BitVec.toNat_injective).symm

/-! ## The match and mask table -/

/-- The value a row compares OP with. -/
def OpcodeRow.op (r : OpcodeRow) : Byte := (CommandFields.ofWord r.pattern).op

theorem CommandFields.word_eq_iff {v w : Word} : v = w ↔
    (ofWord v).op = (ofWord w).op ∧ (ofWord v).arg = (ofWord w).arg ∧ (ofWord v).rsv = (ofWord w).rsv := by
  constructor
  · rintro rfl
    exact ⟨rfl, rfl, rfl⟩
  · rintro ⟨hop, harg, hrsv⟩
    rw [← toWord_ofWord v, ← toWord_ofWord w, toWord, hop, harg, hrsv, toWord]

/-- A word is masked field by field. -/
theorem CommandFields.ofWord_and (v w : Word) : ofWord (v &&& w) =
    ⟨(ofWord v).op &&& (ofWord w).op, (ofWord v).arg &&& (ofWord w).arg, (ofWord v).rsv &&& (ofWord w).rsv⟩ := by
  simp only [ofWord, BitVec.extractLsb'_and]

/-- A row compares all of OP and RSV, RSV with 0, and of ARG all or nothing, with 0 (R70). -/
theorem opcodeTable_row {r : OpcodeRow} (hr : r ∈ opcodeTable) :
    (CommandFields.ofWord r.pattern).opKnown = true ∧
    (CommandFields.ofWord r.pattern).arg = 0#9 ∧
    (CommandFields.ofWord r.pattern).rsv = 0#15 ∧
    CommandFields.ofWord r.mask =
      ⟨.allOnes 8, if (CommandFields.ofWord r.pattern).takesNoOperand then .allOnes 9 else 0#9, .allOnes 15⟩ := by
  revert r
  decide

/-- A masked field is 0 exactly when what the mask lets through is. -/
theorem and_ite_allOnes_eq_zero_iff {n : Nat} {c : Bool} {x : BitVec n} :
    (x &&& if c then .allOnes n else 0#n) = 0#n ↔ (c = true → x = 0#n) := by
  cases c <;> simp

/-- A row matches the legal words with its opcode. -/
theorem matchesWord_iff {r : OpcodeRow} (hr : r ∈ opcodeTable) (w : Word) : r.matchesWord w = true ↔
    (CommandFields.ofWord w).op = r.op ∧ (CommandFields.ofWord w).wellFormed = true := by
  obtain ⟨hknown, harg, hrsv, hmask⟩ := opcodeTable_row hr
  simp only [OpcodeRow.matchesWord, beq_iff_eq, CommandFields.word_eq_iff, CommandFields.ofWord_and, hmask, harg, hrsv,
    BitVec.and_allOnes, and_ite_allOnes_eq_zero_iff, CommandFields.wellFormed_iff]
  refine and_congr_right fun hop => ?_
  have hknown' : (CommandFields.ofWord w).opKnown = true := by rwa [CommandFields.opKnown, hop]
  have htakes : (CommandFields.ofWord w).takesNoOperand = (CommandFields.ofWord r.pattern).takesNoOperand := by
    rw [CommandFields.takesNoOperand, hop, CommandFields.takesNoOperand]
  simp only [hknown', htakes, true_and, and_comm]

/-- The ten opcodes differ, and each stands with its command's mnemonic. -/
theorem opcodeTable_filter_op (i : Instr) :
    ∃ r, opcodeTable.filter (fun r => i.fields.op = r.op) = [r] ∧ r.mnemonic = i.mnemonic := by
  cases i <;> exact ⟨_, rfl, rfl⟩

/-- Settles O3: a row matches by opcode alone among the legal words, and no illegal word is well formed. -/
theorem oneTableRowMatches : Obligations.OneTableRowMatches := by
  refine fun w => ⟨fun i hd => ?_, fun why hd => List.filter_eq_nil_iff.mpr fun r hr hm => ?_⟩
  · have hrow : ∀ r ∈ opcodeTable, r.matchesWord w = decide (i.fields.op = r.op) := by
      intro r hr
      rw [Bool.eq_iff_iff, matchesWord_iff hr, ← decode_eq_command_iff.mp hd, decide_eq_true_iff]
      exact and_iff_left i.fields_wellFormed
    rw [List.filter_congr hrow]
    exact opcodeTable_filter_op i
  · obtain ⟨i, hi⟩ := exists_decode_iff_wellFormed.mpr ((matchesWord_iff hr w).mp hm).2
    cases hd.symm.trans hi

end Sys2Proof
end

section
/-! Illegal words (spec/30_encoding.md rule R68), and the loops of a listing (rule R73). -/

namespace Sys2Proof.Machine

/-! ## Illegal words -/

theorem acceptWord_of_illegal {w : Word} (h : ¬ ∃ i, decode w = .command i) (s : State) :
    acceptWord w s = acceptIllegal w s := by
  unfold acceptWord
  cases hd : decode w with
  | command i => exact absurd ⟨i, hd⟩ h
  | illegal why => rfl

theorem acceptIllegal_ok {s : State} (hb : s.busy = false) (hp : s.phase ≠ .error) (w : Word) :
    acceptIllegal w s = .next (s.raise .illegalCmd w) := by
  simp [acceptIllegal, hb, hp]

/-- Settles O2: the words decoded are the well-formed ones, and R68's conditions on the fields are conditions on bits. -/
theorem legalWordsAndIllegalCmd : Obligations.LegalWordsAndIllegalCmd := by
  refine fun w => ⟨?_, fun s hb hp h => (acceptWord_of_illegal h s).trans (acceptIllegal_ok hb hp w)⟩
  rw [exists_decode_iff_wellFormed, CommandFields.wellFormed_iff, CommandFields.opKnown, CommandFields.takesNoOperand,
    contains_iff_toNat_mem, contains_iff_toNat_mem, ← BitVec.toNat_inj, ← BitVec.toNat_inj,
    CommandFields.toNat_op_ofWord, CommandFields.toNat_arg_ofWord, CommandFields.toNat_rsv_ofWord]
  rfl

/-! ## WAIT and DRAIN -/

theorem step_of_host {s : State} (h : s.nextTurn = .host) : step s = hostTurn s.endTurn := by
  simp [step, h, takeTurn]

/-- A WAIT reads STATUS and stays while BUSY = 1. -/
theorem State.waitStep_eq (s : State) :
    s.waitStep = { s with readData := s.statusWord, prog := if s.busy then s.prog else s.prog.tail } := by
  have hread : s.hostRead Reg.status.index = { s with readData := s.statusWord } := rfl
  simp only [State.waitStep, hread, State.statusWord_busy]
  cases s.busy <;> rfl

theorem step_of_wait {s : State} {rest : List HostOp} (hn : s.nextTurn = .host) (hp : s.prog = .wait :: rest) :
    step s = .next { s with readData := s.statusWord, turns := s.turns.tail,
                            prog := if s.busy then .wait :: rest else rest } := by
  have hstep : step s = .next s.endTurn.waitStep := by simp [step_of_host hn, hostTurn, hp]
  rw [hstep, State.waitStep_eq, State.endTurn_prog, hp]
  rfl

/-- With a byte in the FIFO a DRAIN pops it and stays. -/
theorem State.drainStep_cons {s : State} {b : Byte} {bs : List Byte} (h : s.fifo = b :: bs) :
    s.drainStep = { s with readData := s.outDataWord, fifo := bs, outRead := s.outRead ++ [b] } := by
  have hvalid : s.outDataWord.getLsbD 8 = true := by
    simp only [State.outDataWord, h, BitVec.getLsbD_append]
    simp
  simp [State.drainStep, State.hostRead_outData_cons h, hvalid]

/-- On an empty FIFO a DRAIN reads 0 and ends. -/
theorem State.drainStep_nil {s : State} (h : s.fifo = []) :
    s.drainStep = { s with readData := 0#32, prog := s.prog.tail } := by
  simp [State.drainStep, State.hostRead_outData_nil h, State.nextStatement]

section
variable {s : State} {rest : List HostOp} (hn : s.nextTurn = .host) (hp : s.prog = .drain :: rest)
include hn hp

theorem step_of_drain : step s = .next s.endTurn.drainStep := by
  simp [step_of_host hn, hostTurn, hp]

theorem step_of_drain_cons {b : Byte} {bs : List Byte} (h : s.fifo = b :: bs) :
    step s = .next { s with readData := s.outDataWord, fifo := bs, outRead := s.outRead ++ [b],
                            turns := s.turns.tail } := by
  rw [step_of_drain hn hp, State.drainStep_cons (s := s.endTurn) h]
  rfl

theorem step_of_drain_nil (h : s.fifo = []) :
    step s = .next { s with readData := 0#32, prog := rest, turns := s.turns.tail } := by
  rw [step_of_drain hn hp, State.drainStep_nil (s := s.endTurn) h, State.endTurn_prog, hp]
  rfl

end

theorem run_succ_of_step {M : Host.Core} {s t : M.State} (h : M.step s = .next t) (k : Nat) :
    M.run (k + 1) s = M.run k t := by
  simp only [Host.Core.run, h]

theorem State.nextTurn_of_turns {s : State} {t : Turn} {ts : List Turn} (h : s.turns = t :: ts) : s.nextTurn = t := by
  simp [State.nextTurn, h]

/-- By induction on the bytes in the FIFO: each turn but the last pops one. -/
theorem run_drain (bs : List Byte) : ∀ {s : State} {rest : List HostOp} {more : List Turn}, s.fifo = bs →
    s.prog = .drain :: rest → s.turns = List.replicate (bs.length + 1) .host ++ more →
    Host.Core.run core (bs.length + 1) s =
      .next { s with fifo := [], outRead := s.outRead ++ bs, readData := 0#32, prog := rest, turns := more } := by
  induction bs with
  | nil =>
    intro s rest more hf hp ht
    have hstep := step_of_drain_nil (State.nextTurn_of_turns ht) hp hf
    refine (run_succ_of_step (M := core) hstep 0).trans ?_
    simp [Host.Core.run, hf, ht]
  | cons b bs ih =>
    intro s rest more hf hp ht
    have hstep := step_of_drain_cons (State.nextTurn_of_turns ht) hp hf
    refine (run_succ_of_step (M := core) hstep (bs.length + 1)).trans (Eq.trans (ih rfl hp (congrArg List.tail ht)) ?_)
    simp

/-- Settles O53: a DRAIN makes one read per byte and one on the empty FIFO, and a WAIT's read gives BUSY in bit 0. -/
theorem waitAndDrainLoops : Obligations.WaitAndDrainLoops :=
  ⟨fun _ _ _ => run_drain _ rfl, fun _ _ => step_of_wait⟩

end Sys2Proof.Machine
end

/-! # Proofs: spec/40_host_port.md -/

section
/-! Host writes and the acceptance of a command word (spec/40_host_port.md rules R76 to R84), and that every step answers
a next state (rules R75, R76 and R81). -/

namespace Sys2Proof.Machine

/-! ## Every step answers -/

theorem acceptWord_next (w : Word) (s : State) : ∃ t, acceptWord w s = .next t := by
  unfold acceptWord
  cases decode w with
  | command i => exact exec_next i s
  | illegal _ => exact acceptIllegal_next w s

theorem State.hostWrite_next (s : State) (i : RegIndex) (v : Word) : ∃ t, s.hostWrite i v = .next t := by
  by_cases hi : i = Reg.cmd.index
  · rw [hi, State.hostWrite_cmd]
    exact acceptWord_next v s
  · obtain ⟨f, hf⟩ := s.hostWrite_of_ne v hi
    exact ⟨_, hf⟩

theorem hostTurn_next (s : State) : ∃ t, hostTurn s = .next t := by
  unfold hostTurn
  cases s.prog with
  | nil => exact ⟨_, rfl⟩
  | cons op _ =>
    cases op with
    | wr i v => exact s.nextStatement.hostWrite_next i v
    | rd _ => exact ⟨_, rfl⟩
    | wait => exact ⟨_, rfl⟩
    | drain => exact ⟨_, rfl⟩

/-- Settles O6: the engine's turn and reset are states outright, and of the host's accesses only a CMD write could
answer otherwise, which acceptance does not. -/
theorem stepAlwaysAnswers : Obligations.StepAlwaysAnswers := by
  intro s
  cases hn : s.nextTurn with
  | host => exact step_of_host hn ▸ hostTurn_next _
  | engine => exact ⟨_, step_of_engine hn⟩
  | reset => exact ⟨_, step_of_reset hn⟩

/-! ## Acceptance (R78, R79, R82) -/

theorem exec_busy {i : Instr} {s : State} (hb : s.busy = true) (hi : i ≠ .clear) :
    exec i s = .next (s.raise .cmdWhileBusy (encodeWord i)) :=
  (exec_eq_accept i s hi).trans (accept_busy hb)

theorem acceptWord_busy {w : Word} {s : State} (hb : s.busy = true) (hw : decode w ≠ .command .clear) :
    acceptWord w s = .next (s.raise .cmdWhileBusy w) := by
  unfold acceptWord
  cases hd : decode w with
  | command i =>
    have hi : i ≠ .clear := fun e => hw (hd.trans (congrArg _ e))
    have henc : encodeWord i = w := (decodeExactlyInvertsEncode w i).mp hd
    exact henc ▸ exec_busy hb hi
  | illegal _ => simp [acceptIllegal, hb]

/-- Settles O9: BUSY = 1 is the first test of acceptance, which only CLEAR passes by, and an error aborts PEND. -/
theorem commandWhileBusy : Obligations.CommandWhileBusy := fun w s hb =>
  ⟨fun hw => ⟨acceptWord_busy hb hw, rfl⟩,
    fun hw => ⟨s.clear, by simp only [acceptWord, hw]; rfl, s.runStart_clear⟩⟩

theorem exec_out_of_phase {i : Instr} {s : State} (hb : s.busy = false) (hp : s.phase ≠ .error)
    (hl : legalIn i s.phase = false) : exec i s = .next (s.raise .sequence (encodeWord i)) := by
  have hi : i ≠ .clear := by
    rintro rfl
    exact hp (by simpa [legalIn] using hl)
  exact (exec_eq_accept i s hi).trans (accept_out_of_phase hb hp hl)

/-- NOP and the readouts execute in every phase, ERROR included. -/
theorem exec_keeps_errCode {i : Instr} {s : State} (hb : s.busy = false) (hr : runsInError i = true) (hi : i ≠ .clear) :
    ∃ t, exec i s = .next t ∧ t.errCode = s.errCode := by
  cases i with
  | nop => exact ⟨s, accept_always hb rfl, rfl⟩
  | clear => exact absurd rfl hi
  | readFreq a => exact ⟨_, accept_always hb rfl, rfl⟩
  | readNode a => exact ⟨_, accept_always hb rfl, rfl⟩
  | readCode a => exact ⟨_, accept_always hb rfl, rfl⟩
  | count | build | gencodes | encode | flush => cases hr

/-- Settles O10: each command's legal phases are `legalIn`'s, and NOP, CLEAR and the readouts run in all of them. -/
theorem outOfPhaseRaisesSequence : Obligations.OutOfPhaseRaisesSequence := by
  constructor
  · intro s hb hp
    refine ⟨fun hc => ⟨?build, fun a => ?count⟩, fun hu => ?gencodes, fun hd he => ⟨?flush, fun a => ?encode⟩⟩
    case build | count => exact exec_out_of_phase hb hp (by simp [legalIn, hc])
    case gencodes => exact exec_out_of_phase hb hp (by simp [legalIn, hu])
    case flush | encode => exact exec_out_of_phase hb hp (by simp [legalIn, hd, he])
  · intro s hb a i hi
    by_cases hc : i = .clear
    · subst hc
      exact ⟨s.clear, rfl, .inr s.runStart_clear⟩
    · have hr : runsInError i = true := by
        simp only [List.mem_cons, List.not_mem_nil, or_false] at hi
        rcases hi with rfl | rfl | rfl | rfl | rfl <;> rfl
      obtain ⟨t, ht, he⟩ := exec_keeps_errCode hb hr hc
      exact ⟨t, ht, .inl he⟩

/-- Settles O17: NOP runs in every phase with no effect, and BUSY = 1 comes first. -/
theorem nopHasNoEffect : Obligations.NopHasNoEffect := fun _ =>
  ⟨fun hb => accept_always hb rfl, fun hb => exec_busy hb nofun⟩

/-! ## Writes (R76) -/

theorem Format.ofBit_lsb {n : Nat} (v : BitVec n) :
    Format.ofBit (v.getLsbD 0) = if v.toNat % 2 = 1 then .textual else .packed := by
  simp [Format.ofBit, BitVec.getLsbD, Nat.testBit_zero]

theorem State.hostWrite_ctrl (s : State) (v : Word) :
    s.hostWrite Reg.ctrl.index v = .next { s with fmt := Format.ofBit (v.getLsbD 0) } := rfl

theorem State.hostWrite_other (s : State) {i : RegIndex} (v : Word) (hctrl : i ≠ Reg.ctrl.index)
    (hcmd : i ≠ Reg.cmd.index) : s.hostWrite i v = .next s := by
  unfold State.hostWrite
  split
  · exact absurd (Reg.ofIndex_eq_cmd ‹_›) hcmd
  · exact absurd (Reg.ofIndex_eq_ctrl ‹_›) hctrl
  · rfl

/-- Settles O51: CMD and CTRL stand at the word indices 2 and 1 only, and FMT is bit 0 of the value. -/
theorem hostWrites : Obligations.HostWrites := fun s v =>
  ⟨s.hostWrite_cmd v, Format.ofBit_lsb v ▸ s.hostWrite_ctrl v, fun _ => s.hostWrite_other v⟩

end Sys2Proof.Machine
end

/-! # Proofs: spec/41_histogram.md -/

section
/-! COUNT and READ_FREQ, and that the order of counting is irrelevant (spec/41_histogram.md rules R92 to R95). -/

namespace Sys2Proof.Machine

/-! ## The order of counting (R95) -/

theorem State.freq_countSymbol_comm (s : State) (y z : Symbol) :
    ((s.countSymbol y).countSymbol z).freq = ((s.countSymbol z).countSymbol y).freq := by
  by_cases h : z = y
  · rw [h]
  · have hne : y.toNat ≠ z.toNat := fun e => h (BitVec.eq_of_toNat_eq e.symm)
    simp only [State.countSymbol_freq, State.freqAt_countSymbol, if_neg h, if_neg (Ne.symm h)]
    exact Vector.set_comm _ _ hne

/-- NSYM rises once for each of two symbols whose entry is 0, whichever is counted first. -/
theorem State.nsym_countSymbol_comm (s : State) (y z : Symbol) :
    ((s.countSymbol y).countSymbol z).nsym = ((s.countSymbol z).countSymbol y).nsym := by
  by_cases h : z = y
  · rw [h]
  · simp only [State.countSymbol_nsym, State.freqAt_countSymbol, if_neg h, if_neg (Ne.symm h)]
    by_cases hy : s.freqAt y = 0#32 <;> by_cases hz : s.freqAt z = 0#32 <;> simp only [hy, hz, if_true, if_false]

theorem State.countSymbol_comm (s : State) (y z : Symbol) :
    (s.countSymbol y).countSymbol z = (s.countSymbol z).countSymbol y := by
  have hframe : ∀ u v : Symbol, (s.countSymbol u).countSymbol v =
      { s with freq := ((s.countSymbol u).countSymbol v).freq, total := s.total + 1#32 + 1#32,
               nsym := ((s.countSymbol u).countSymbol v).nsym } := fun _ _ => rfl
  rw [hframe y z, hframe z y, State.freq_countSymbol_comm, State.nsym_countSymbol_comm]

/-- An argument above 255 leaves the state as it is, before or after any other. -/
theorem State.countArg_comm (s : State) (a b : Arg) : (s.countArg a).countArg b = (s.countArg b).countArg a := by
  rcases Nat.lt_or_ge 255 a.toNat with ha | ha
  · rw [State.countArg_of_gt _ ha, State.countArg_of_gt _ ha]
  · rcases Nat.lt_or_ge 255 b.toNat with hb | hb
    · rw [State.countArg_of_gt _ hb, State.countArg_of_gt _ hb]
    · simp only [State.countArg_of_le _ ha, State.countArg_of_le _ hb]
      exact s.countSymbol_comm _ _

/-- Settles O21: the effects of any two COUNTs commute, so a fold over them depends on the arguments up to
permutation only. -/
theorem countOrderIsIrrelevant : Obligations.CountOrderIsIrrelevant :=
  fun s _ _ h => h.foldl_eq' (fun a _ b _ t => t.countArg_comm a b) s

/-! ## COUNT (R92, R93) -/

theorem countPrecheck_of_gt {a : Arg} (h : 255 < a.toNat) (s : State) : countPrecheck a s = none :=
  if_neg fun hc => absurd hc.1 (Nat.not_le.mpr h)

theorem countPrecheck_of_total_ne {s : State} (h : s.total ≠ maxWord) (a : Arg) : countPrecheck a s = none :=
  if_neg fun hc => h hc.2

theorem countPrecheck_overflow {a : Arg} {s : State} (ha : a.toNat ≤ 255) (ht : s.total = maxWord) :
    countPrecheck a s = some .countOverflow :=
  if_pos ⟨ha, ht⟩

section
variable {a : Arg} {s : State} (hb : s.busy = false) (hp : s.phase = .count)
include hb hp

theorem exec_count_of_precheck_none (h : countPrecheck a s = none) :
    exec (.count a) s = .next (s.countArg a) := by
  rw [exec_eq_accept (.count a) s nofun, precheckOf, h]
  exact accept_ok hb (by simp [hp]) (by simp [legalIn, hp])

theorem exec_count_of_precheck_some {e : ErrorCode} (h : countPrecheck a s = some e) :
    exec (.count a) s = .next (s.raise e (encodeWord (.count a))) := by
  rw [exec_eq_accept (.count a) s nofun, precheckOf, h]
  exact accept_precheck hb (by simp [hp]) (by simp [legalIn, hp])

end

/-- Settles O19: in its phase the precheck alone decides between COUNT's effect and COUNT_OVERFLOW, and an argument
above 255 passes the precheck with no effect. -/
theorem countCountsASymbol : Obligations.CountCountsASymbol := by
  intro a s hb
  refine ⟨fun hp ha ht => ?counted, fun hp ha => ?dropped, fun hp ha ht => ?overflow, fun hp he => ?outOfPhase⟩
  case counted =>
    refine ⟨s.countSymbol (a.setWidth 8), ?_, rfl, ?_, fun y hy => ?_⟩
    · rw [exec_count_of_precheck_none hb hp (countPrecheck_of_total_ne ht a), s.countArg_of_le ha]
    · rw [s.freqAt_countSymbol, if_pos rfl]
    · rw [s.freqAt_countSymbol, if_neg hy]
  case dropped =>
    rw [exec_count_of_precheck_none hb hp (countPrecheck_of_gt ha s), s.countArg_of_gt ha]
  case overflow =>
    exact ⟨_, exec_count_of_precheck_some hb hp (countPrecheck_overflow ha ht), rfl, rfl, rfl, rfl⟩
  case outOfPhase => exact exec_out_of_phase hb he (by simp [legalIn, hp])

/-! ## READ_FREQ (R94) -/

theorem State.regValue_res_setRes (s : State) (ws : List Word) (i : Fin 9) :
    (s.setRes ws).regValue (.res i) = ws.getD i.val 0#32 :=
  s.res_setRes ws i

theorem State.freqReadout_of_le (s : State) {a : Arg} (h : a.toNat ≤ 255) :
    s.freqReadout a = [s.freqAt (a.setWidth 8)] := by
  simp only [State.freqReadout, argSymbol_of_le h]

theorem State.freqReadout_of_gt (s : State) {a : Arg} (h : 255 < a.toNat) : s.freqReadout a = [] := by
  simp only [State.freqReadout, argSymbol_of_gt h]

theorem State.length_freqReadout_le (s : State) (a : Arg) : (s.freqReadout a).length ≤ 1 := by
  rcases Nat.lt_or_ge 255 a.toNat with ha | ha
  · simp [s.freqReadout_of_gt ha]
  · simp [s.freqReadout_of_le ha]

/-- Settles O20: READ_FREQ runs in every phase, and its readout has at most the one word of RES0. -/
theorem readFreqGivesTheCount : Obligations.ReadFreqGivesTheCount := by
  intro a s hb
  refine ⟨s.setRes (s.freqReadout a), accept_always hb rfl, rfl, fun ha => ?le, fun ha => ?gt, fun i hi => ?rest⟩
  case le => rw [State.regValue_res_setRes, s.freqReadout_of_le ha]; rfl
  case gt => rw [State.regValue_res_setRes, s.freqReadout_of_gt ha]; rfl
  case rest =>
    rw [State.regValue_res_setRes]
    exact List.getD_eq_default _ _ ((s.length_freqReadout_le a).trans hi)

end Sys2Proof.Machine
end

/-! # Proofs: spec/42_tree_builder.md -/

section
/-! The order of the working list and of the merges, and the shape of the tree they make (spec/42_tree_builder.md rules
R96 to R99). -/

namespace Sys2Proof.Machine

/-! ## The working list at the start (R96, R97) -/

/-- Inserting nodes with different indices one by one gives an ascending list. -/
theorem ascending_foldr_insertByKey {q : List QueueItem} (h : (q.map QueueItem.index).Nodup) :
    Ascending (q.foldr insertByKey []) := by
  induction q with
  | nil => exact .nil
  | cons x q ih =>
    obtain ⟨hx, hq⟩ := List.nodup_cons.mp h
    refine ascending_insertByKey (ih hq) fun y hy e => hx ?_
    exact e ▸ List.mem_map_of_mem ((foldr_insertByKey_perm q).mem_iff.mp hy)

theorem State.nodup_leaves_index (s : State) : (s.leaves.map QueueItem.index).Nodup := by
  rw [s.leaves_eq, List.map_map]
  exact (nodup_allSymbols.filter _).map fun _ _ => leafIndex_inj.mp

theorem State.ascending_initialQueue (s : State) : Ascending s.initialQueue :=
  ascending_foldr_insertByKey s.nodup_leaves_index

/-- Settles O24: the leaves have different indices, so insertion one by one sorts them, and it loses none. -/
theorem workingListStartsSorted : Obligations.WorkingListStartsSorted := fun s =>
  ⟨s.ascending_initialQueue, s.initialQueue_perm⟩

/-- The weights Q starts with sum up to Σ FREQ[s], as the leaves left out have weight 0. -/
theorem State.sum_initialQueue (s : State) : (s.initialQueue.map QueueItem.weight).sum = s.freqSum := by
  have hperm : (s.initialQueue.map QueueItem.weight).Perm (s.countedSymbols.map fun y => (s.freqAt y).toNat) := by
    simpa [State.leafItem, Function.comp_def] using s.initialQueue_perm.map QueueItem.weight
  have hfilter : s.countedSymbols.map (fun y => (s.freqAt y).toNat) =
      (allSymbols.map fun y => (s.freqAt y).toNat).filter (· != 0) := by
    rw [List.filter_map]
    refine congrArg _ (List.filter_congr fun y _ => ?_)
    simp [bne, BitVec.toNat_eq]
  rw [hperm.sum_eq, hfilter, List.sum_filter_bne_zero]
  rfl

/-! ## One merge (R97) -/

theorem forall_mem_insertByKey {x : QueueItem} {q : List QueueItem} {P : QueueItem → Prop} :
    (∀ y ∈ insertByKey x q, P y) ↔ P x ∧ ∀ y ∈ q, P y := by
  simp only [(insertByKey_perm x q).mem_iff, List.forall_mem_cons]

/-- The node the (k+1)-th merge makes of the two nodes it removes. -/
def mergedItem (k : Nat) (a b : QueueItem) : QueueItem :=
  { weight := a.weight + b.weight, index := internalIndex k }

/-- What holds of Q before the (k+1)-th merge: it ascends by key, and its nodes were made before. -/
structure QueueAt (k : Nat) (q : List QueueItem) : Prop where
  ascending : Ascending q
  index_lt : ∀ x ∈ q, x.index.toNat < 256 + k
  room : k + q.length ≤ 257

theorem State.queueAt_initialQueue (s : State) : QueueAt 0 s.initialQueue where
  ascending := s.ascending_initialQueue
  index_lt x hx := by
    obtain ⟨y, _, rfl⟩ := List.mem_map.mp (s.initialQueue_perm.mem_iff.mp hx)
    have := y.isLt
    simpa [State.leafItem] using this
  room := by
    have := s.length_countedSymbols_le
    rw [s.length_initialQueue]
    omega

section
variable {k : Nat} {a b : QueueItem} {rest : List QueueItem} (h : QueueAt k (a :: b :: rest))
include h

theorem QueueAt.toNat_internalIndex : (internalIndex k).toNat = 256 + k := by
  have := h.room
  simp only [List.length_cons] at this
  exact Machine.toNat_internalIndex (by omega)

/-- A node made weighs no less than a node removed, and its index is higher. -/
theorem QueueAt.keyLt_mergedItem {x : QueueItem} (hx : x = a ∨ x = b) : x.keyLt (mergedItem k a b) = true := by
  have hlt : x.index.toNat < 256 + k := h.index_lt x (by rcases hx with rfl | rfl <;> simp)
  have hw : x.weight ≤ a.weight + b.weight := by rcases hx with rfl | rfl <;> omega
  rw [QueueItem.keyLt_iff]
  simp only [mergedItem, h.toNat_internalIndex]
  omega

/-- A merge leaves Q as the next merge needs it. -/
theorem QueueAt.merge : QueueAt (k + 1) (insertByKey (mergedItem k a b) rest) where
  ascending := by
    obtain ⟨_, hb⟩ := List.pairwise_cons.mp h.ascending
    refine ascending_insertByKey (List.pairwise_cons.mp hb).2 fun y hy e => ?_
    have hlt := h.index_lt y (by simp [hy])
    rw [← e, mergedItem, h.toNat_internalIndex] at hlt
    omega
  index_lt := by
    refine forall_mem_insertByKey.mpr ⟨?_, fun x hx => ?_⟩
    · simp [mergedItem, h.toNat_internalIndex]
    · exact (h.index_lt x (by simp [hx])).trans (by omega)
  room := by
    have := h.room
    simp only [List.length_cons, length_insertByKey] at this ⊢
    omega

end

/-- A merge keeps the sum of the weights in Q. -/
theorem sum_weight_merge (k : Nat) (a b : QueueItem) (rest : List QueueItem) :
    ((insertByKey (mergedItem k a b) rest).map QueueItem.weight).sum =
      ((a :: b :: rest).map QueueItem.weight).sum := by
  rw [((insertByKey_perm _ _).map _).sum_eq]
  simp [mergedItem, Nat.add_assoc]

/-! ## The order of removal (R97) -/

/-- The nodes in the order in which the merge loop removes them, then those left in Q. -/
def removalOrder : Nat → Nat → List QueueItem → List QueueItem
  | fuel + 1, k, a :: b :: rest => a :: b :: removalOrder fuel (k + 1) (insertByKey (mergedItem k a b) rest)
  | _, _, q => q

/-- With fewer than two nodes, or at the end of its fuel, the loop makes nothing. -/
theorem mergeLoop_idle {fuel k : Nat} {q : List QueueItem}
    (h : ∀ fuel' a b rest, fuel = Nat.succ fuel' → q = a :: b :: rest → False) : mergeLoop fuel k q = ([], q) :=
  mergeLoop.eq_2 fuel k q h

theorem removalOrder_idle {fuel k : Nat} {q : List QueueItem}
    (h : ∀ fuel' a b rest, fuel = Nat.succ fuel' → q = a :: b :: rest → False) : removalOrder fuel k q = q :=
  removalOrder.eq_2 fuel k q h

/-- What comes before every node in Q comes before every node the loop removes or leaves: a merge makes no node of a
lower key. -/
theorem keyLt_removalOrder {z : QueueItem} {fuel k : Nat} {q : List QueueItem} (h : QueueAt k q)
    (hz : ∀ x ∈ q, z.keyLt x = true) : ∀ x ∈ removalOrder fuel k q, z.keyLt x = true := by
  induction fuel, k, q using removalOrder.induct with
  | case1 fuel k a b rest ih =>
    obtain ⟨ha, hb, hrest⟩ : z.keyLt a = true ∧ z.keyLt b = true ∧ ∀ x ∈ rest, z.keyLt x = true := by
      simpa using hz
    have hmerged : z.keyLt (mergedItem k a b) = true := QueueItem.keyLt_trans ha (h.keyLt_mergedItem (.inl rfl))
    have hlater := ih h.merge (forall_mem_insertByKey.mpr ⟨hmerged, hrest⟩)
    exact List.forall_mem_cons.mpr ⟨ha, List.forall_mem_cons.mpr ⟨hb, hlater⟩⟩
  | case2 fuel k q hidle => rwa [removalOrder_idle hidle]

/-- The loop removes the nodes in ascending order of their keys, and those left come last. -/
theorem ascending_removalOrder {fuel k : Nat} {q : List QueueItem} (h : QueueAt k q) :
    Ascending (removalOrder fuel k q) := by
  induction fuel, k, q using removalOrder.induct with
  | case1 fuel k a b rest ih =>
    obtain ⟨ha, hbrest⟩ := List.pairwise_cons.mp h.ascending
    obtain ⟨hb, _⟩ := List.pairwise_cons.mp hbrest
    have hab : a.keyLt b = true := ha b (by simp)
    have hlater : ∀ x ∈ removalOrder fuel (k + 1) (insertByKey (mergedItem k a b) rest), b.keyLt x = true :=
      keyLt_removalOrder h.merge (forall_mem_insertByKey.mpr ⟨h.keyLt_mergedItem (.inr rfl), hb⟩)
    refine List.pairwise_cons.mpr ⟨?_, List.pairwise_cons.mpr ⟨hlater, ih h.merge⟩⟩
    exact List.forall_mem_cons.mpr ⟨hab, fun x hx => QueueItem.keyLt_trans hab (hlater x hx)⟩
  | case2 fuel k q hidle =>
    rw [removalOrder_idle hidle]
    exact h.ascending

/-! ## Weights (R97, R99) -/

/-- The weight of the nodes left is the weight Q had. -/
theorem mergeLoop_sum (fuel k : Nat) (q : List QueueItem) :
    ((mergeLoop fuel k q).2.map QueueItem.weight).sum = (q.map QueueItem.weight).sum := by
  induction fuel, k, q using mergeLoop.induct with
  | case1 fuel k a b rest ih => exact ih.trans (sum_weight_merge k a b rest)
  | case2 fuel k q hidle => rw [mergeLoop_idle hidle]

/-- No node made weighs more than Q in all. -/
theorem mergeLoop_weight_le (fuel k : Nat) (q : List QueueItem) :
    ∀ e ∈ (mergeLoop fuel k q).1, e.weight.toNat ≤ (q.map QueueItem.weight).sum := by
  induction fuel, k, q using mergeLoop.induct with
  | case1 fuel k a b rest ih =>
    intro e he
    rw [mergeLoop_cons, List.mem_cons] at he
    rcases he with rfl | he
    · refine (Nat.mod_le _ _).trans ?_
      simp only [List.map_cons, List.sum_cons]
      omega
    · exact (ih e he).trans_eq (sum_weight_merge k a b rest)
  | case2 fuel k q hidle => simp [mergeLoop_idle hidle]

/-- A node with its weight, looked up. -/
def itemOf (w : NodeIndex → Nat) (n : NodeIndex) : QueueItem := { weight := w n, index := n }

/-- The children of the entries, merge by merge, left before right, each with its weight looked up. -/
def childItems (w : NodeIndex → Nat) (es : List NodeEntry) : List QueueItem :=
  es.flatMap fun e => [itemOf w e.left, itemOf w e.right]

theorem State.mergedChildren_eq (s : State) : s.mergedChildren = childItems s.treeWeight s.buildTree.1 := rfl

/-- If w gives the weights of the nodes in Q and of the nodes the loop makes, and no sum overflows, then the children
with their weights, then the nodes left, are the nodes in order of removal, and each W is the sum of its children's. -/
theorem mergeLoop_childItems {w : NodeIndex → Nat} {fuel k : Nat} {q : List QueueItem}
    (hq : ∀ x ∈ q, x.weight = w x.index) (hsum : (q.map QueueItem.weight).sum < 2 ^ 32)
    (hw : ∀ (j : Nat) (e : NodeEntry), (mergeLoop fuel k q).1[j]? = some e →
      w (internalIndex (k + j)) = e.weight.toNat) :
    childItems w (mergeLoop fuel k q).1 ++ (mergeLoop fuel k q).2 = removalOrder fuel k q ∧
      ∀ e ∈ (mergeLoop fuel k q).1, e.weight.toNat = w e.left + w e.right := by
  induction fuel, k, q using mergeLoop.induct with
  | case1 fuel k a b rest ih =>
    have ha : itemOf w a.index = a := by rw [itemOf, ← hq a (by simp)]
    have hb : itemOf w b.index = b := by rw [itemOf, ← hq b (by simp)]
    have hmade : (BitVec.ofNat 32 (a.weight + b.weight)).toNat = a.weight + b.weight := by
      simp only [List.map_cons, List.sum_cons] at hsum
      exact Nat.mod_eq_of_lt (by omega)
    have hnext : ∀ x ∈ insertByKey (mergedItem k a b) rest, x.weight = w x.index :=
      forall_mem_insertByKey.mpr ⟨((hw 0 _ rfl).trans hmade).symm, fun x hx => hq x (by simp [hx])⟩
    obtain ⟨horder, hweight⟩ := ih hnext ((sum_weight_merge k a b rest).trans_lt hsum) fun j e he => by
      rw [Nat.add_right_comm]
      exact hw (j + 1) e he
    rw [mergeLoop_cons]
    constructor
    · change itemOf w a.index :: itemOf w b.index :: (childItems w _ ++ _) = _
      rw [ha, hb]
      exact congrArg (fun l => a :: b :: l) horder
    · intro e he
      rcases List.mem_cons.mp he with rfl | he
      · rw [← hq a (by simp), ← hq b (by simp)]
        exact hmade
      · exact hweight e he
  | case2 fuel k q hidle => simp [mergeLoop_idle hidle, removalOrder_idle hidle, childItems]

theorem State.treeWeight_leafIndex (s : State) (y : Symbol) : s.treeWeight (leafIndex y) = (s.freqAt y).toNat := by
  simp [State.treeWeight]

theorem State.treeWeight_internalIndex {s : State} {k : Nat} {e : NodeEntry} (hk : k < 256)
    (h : s.buildTree.1[k]? = some e) : s.treeWeight (internalIndex k) = e.weight.toNat := by
  simp [State.treeWeight, argSymbol_internalIndex hk, toNat_internalIndex hk, h]

/-! ## The tree of counts that agree -/

section
variable {s : State} (hc : CountsAgree s) (hn : s.nsym ≠ 0#9)
include hc

theorem CountsAgree.sum_initialQueue : (s.initialQueue.map QueueItem.weight).sum = s.total.toNat := by
  rw [s.sum_initialQueue, hc.total]

/-- The nodes of the tree, with NSYM for the number of leaves. -/
theorem CountsAgree.treeNodes_eq : s.treeNodes =
    s.countedSymbols.map leafIndex ++ (List.range (s.nsym.toNat - 1)).map internalIndex := by
  rw [State.treeNodes, hc.nsym]

include hn

theorem CountsAgree.countedSymbols_ne_nil : s.countedSymbols ≠ [] := fun e =>
  hn (BitVec.eq_of_toNat_eq (by rw [hc.nsym, e]; rfl))

theorem CountsAgree.length_buildTree : s.buildTree.1.length + 1 = s.nsym.toNat := by
  rw [State.length_buildTree (hc.countedSymbols_ne_nil hn), hc.nsym]

/-- Exactly one node is left, of weight TOTAL (R99). -/
theorem CountsAgree.exists_root : ∃ x, s.buildTree.2 = [x] ∧ x.weight = s.total.toNat := by
  obtain ⟨x, hx⟩ := State.buildTree_root (hc.countedSymbols_ne_nil hn)
  refine ⟨x, hx, ?_⟩
  have hsum : (s.buildTree.2.map QueueItem.weight).sum = s.total.toNat :=
    (mergeLoop_sum _ 0 s.initialQueue).trans hc.sum_initialQueue
  simpa [hx] using hsum

section
variable {x : QueueItem} (hx : s.buildTree.2 = [x])
include hx

/-- With two leaves or more the node left is the last one made: it is in the tree, and no child's index is as high. -/
theorem CountsAgree.root_index (h2 : 2 ≤ s.nsym.toNat) : x.index = internalIndex (s.nsym.toNat - 2) := by
  have hcount := hc.nsym
  have hle := s.length_countedSymbols_le
  have hlen := hc.length_buildTree hn
  have hmem : internalIndex (s.nsym.toNat - 2) ∈ s.treeNodes :=
    (s.internalIndex_mem_treeNodes (by omega)).mpr (by omega)
  have hperm := State.buildTree_perm (hc.countedSymbols_ne_nil hn)
  rw [hx] at hperm
  refine ((List.mem_cons.mp (hperm.mem_iff.mpr hmem)).resolve_right fun hchild => ?_).symm
  obtain ⟨e, he, hside⟩ := List.mem_flatMap.mp hchild
  obtain ⟨j, hj, rfl⟩ := List.mem_iff_getElem.mp he
  have hlt := State.buildTree_child_lt (List.getElem?_eq_getElem hj)
  have htop : (internalIndex (s.nsym.toNat - 2)).toNat = 256 + (s.nsym.toNat - 2) := toNat_internalIndex (by omega)
  simp only [List.mem_cons, List.not_mem_nil, or_false] at hside
  rcases hside with hside | hside <;> rw [hside] at htop <;> omega

/-- With one leaf the node left is that leaf (R101). -/
theorem CountsAgree.root_single (h1 : s.nsym = 1#9) : ∃ y, s.countedSymbols = [y] ∧ x.index = leafIndex y := by
  obtain ⟨y, hy⟩ := List.length_eq_one_iff.mp (hc.nsym.symm.trans (by rw [h1]; rfl))
  refine ⟨y, hy, ?_⟩
  have hperm := State.buildTree_perm (hc.countedSymbols_ne_nil hn)
  rw [hx, State.treeNodes, hy] at hperm
  have hmem := hperm.mem_iff.mp List.mem_cons_self
  simpa using hmem

end

end

/-- Settles O26: one node is left by the count of nodes, and it is the one that is no child of a merge. -/
theorem treeShape : Obligations.TreeShape := by
  intro s hc hn
  have hlen := hc.length_buildTree hn
  obtain ⟨x, hx, hweight⟩ := hc.exists_root hn
  refine ⟨by omega, ⟨x, hx, hweight, hc.root_index hn hx, hc.root_single hn hx⟩, ?_, fun k e he => ?_⟩
  · exact hc.treeNodes_eq ▸ State.buildTree_perm (hc.countedSymbols_ne_nil hn)
  · obtain ⟨hleft, hright⟩ := State.buildTree_child_lt he
    refine ⟨hleft, hright, hc.sum_initialQueue ▸ ?_⟩
    exact mergeLoop_weight_le _ 0 s.initialQueue e (List.mem_of_getElem? he)

/-- Settles O60: the children with their weights are the nodes in order of removal, which ascends. -/
theorem mergesTakeTheTwoLowest : Obligations.MergesTakeTheTwoLowest := by
  intro s hc hn
  have hleaf : ∀ x ∈ s.initialQueue, x.weight = s.treeWeight x.index := by
    intro x hx
    obtain ⟨y, _, rfl⟩ := List.mem_map.mp (s.initialQueue_perm.mem_iff.mp hx)
    exact (s.treeWeight_leafIndex y).symm
  have hmade : ∀ (j : Nat) (e : NodeEntry), s.buildTree.1[j]? = some e →
      s.treeWeight (internalIndex (0 + j)) = e.weight.toNat := by
    intro j e he
    obtain ⟨hj, _⟩ := List.getElem?_eq_some_iff.mp he
    have hlen := State.length_buildTree (hc.countedSymbols_ne_nil hn)
    have hle := s.length_countedSymbols_le
    rw [Nat.zero_add]
    exact State.treeWeight_internalIndex (by omega) he
  have hsum : (s.initialQueue.map QueueItem.weight).sum < 2 ^ 32 := hc.sum_initialQueue ▸ s.total.isLt
  obtain ⟨horder, hweight⟩ := mergeLoop_childItems hleaf hsum hmade
  refine ⟨fun k e he => hweight e (List.mem_of_getElem? he), ?_⟩
  rw [s.mergedChildren_eq]
  exact (congrArg Ascending horder).mpr (ascending_removalOrder s.queueAt_initialQueue)

end Sys2Proof.Machine
end

section
/-! BUILD and READ_NODE (spec/42_tree_builder.md rules R98 and R102). -/

namespace Sys2Proof.Machine

/-! ## BUILD (R98) -/

theorem State.nodeAt_completeBuild {s : State} {k : Fin 255} {e : NodeEntry} (h : s.buildTree.1[k.val]? = some e) :
    s.completeBuild.nodeAt (internalIndex k.val) = some e := by
  rw [State.nodeAt_internalIndex, State.completeBuild_node, nodesFrom_getElem _ _ k h]

/-- Settles O23: the precheck alone decides between acceptance and EMPTY_INPUT, and the completion is `completeBuild` of
the accepted state, which has the same counts. -/
theorem buildBuildsTheTree : Obligations.BuildBuildsTheTree := by
  intro s hb hp
  have hphase : s.phase ≠ .error := by simp [hp]
  have hlegal : legalIn .build s.phase = true := by simp [legalIn, hp]
  refine ⟨fun hn => ?accepted, fun hn => ?empty⟩
  case accepted =>
    have hpre : buildPrecheck s = none := if_neg hn
    have htree : (s.defer .build 0#9).buildTree = s.buildTree := State.buildTree_congr rfl
    have hdone : (s.defer .build 0#9).engineStep = (s.defer .build 0#9).completeBuild :=
      State.engineStep_enabled (p := { op := .build, arg := 0#9, fmt := s.fmt }) rfl rfl
    refine ⟨_, _, ?_, rfl, hdone.symm, rfl, fun k e he => ?_, fun x q hq => ?_⟩
    · rw [exec_eq_accept .build s nofun, precheckOf, hpre]
      exact accept_ok hb hphase hlegal
    · exact State.nodeAt_completeBuild (htree.symm ▸ he)
    · rw [State.completeBuild_root, htree, hq]
      rfl
  case empty =>
    have hpre : buildPrecheck s = some .emptyInput := if_pos hn
    refine ⟨_, ?_, rfl, rfl, rfl⟩
    rw [exec_eq_accept .build s nofun, precheckOf, hpre]
    exact accept_precheck hb hphase hlegal

/-! ## READ_NODE (R102) -/

/-- RES0 as the sum of its fields: VALID, KIND, ISROOT and the index. -/
theorem State.toNat_nodeHeader (s : State) (internal : Bool) (n : NodeIndex) :
    (s.nodeHeader internal n).toNat =
      2 ^ 31 + (if internal then 2 ^ 30 else 0) + (if n = s.root then 2 ^ 29 else 0) + n.toNat := by
  have hroot : (n == s.root).toNat = if n = s.root then 1 else 0 := by by_cases h : n = s.root <;> simp [h]
  have hkind : internal.toNat = if internal then 1 else 0 := by cases internal <;> rfl
  simp only [State.nodeHeader, toNat_append_eq, BitVec.toNat_ofBool, BitVec.toNat_ofNat, hroot, hkind]
  split_ifs <;> omega

section
variable {s : State} (hv : s.treeV = true)
include hv

theorem State.nodeReadout_leaf {y : Symbol} (hy : s.freqAt y ≠ 0#32) :
    s.nodeReadout (leafIndex y) = [s.nodeHeader false (leafIndex y), s.freqAt y, y.setWidth 32] := by
  simp [State.nodeReadout, State.leafInTree, hv, hy]

theorem State.internalInTree_internalIndex (k : Fin 255) :
    s.internalInTree (internalIndex k.val) = true ↔ k.val + 1 < s.nsym.toNat := by
  simp [State.internalInTree, hv, toNat_internalIndex (by omega : k.val < 256)]

theorem State.nodeReadout_internal {k : Fin 255} (hk : k.val + 1 < s.nsym.toNat) :
    s.nodeReadout (internalIndex k.val) =
      [s.nodeHeader true (internalIndex k.val), s.node[k].weight, s.node[k].left.setWidth 32,
        s.node[k].right.setWidth 32] := by
  simp only [State.nodeReadout, argSymbol_internalIndex (by omega : k.val < 256), State.nodeAt_internalIndex,
    (State.internalInTree_internalIndex hv k).mpr hk, if_true]

end

/-- Without a tree, and for an index that names no node of the tree, READ_NODE gives no words. -/
theorem State.nodeReadout_eq_nil {s : State} {n : NodeIndex}
    (h : s.treeV = false ∨ (∃ y : Symbol, n = leafIndex y ∧ s.freqAt y = 0#32) ∨ n = 511#9 ∨
      (256 ≤ n.toNat ∧ s.nsym.toNat ≤ n.toNat - 256 + 1)) : s.nodeReadout n = [] := by
  rcases h with hv | ⟨y, rfl, hy⟩ | rfl | ⟨hge, hout⟩
  · simp only [State.nodeReadout, State.leafInTree, State.internalInTree, hv]
    cases argSymbol n <;> rfl
  · simp [State.nodeReadout, State.leafInTree, hy]
  · have hnone : s.nodeAt 511#9 = none := by simp [State.nodeAt]
    simp [State.nodeReadout, argSymbol, hnone]
  · have hin : s.internalInTree n = false := by simp [State.internalInTree]; omega
    simp [State.nodeReadout, argSymbol_of_gt (show 255 < n.toNat by omega), hin]

/-- A readout word past those a command defines is 0 (R41). -/
theorem State.regValue_res_setRes_of_le (s : State) {ws : List Word} {i : Fin 9} (h : ws.length ≤ i.val) :
    (s.setRes ws).regValue (.res i) = 0#32 :=
  (s.regValue_res_setRes ws i).trans (List.getD_eq_default _ _ h)

/-- Settles O28: READ_NODE runs in every phase, and each of its three readouts is a list of words with zeros beyond. -/
theorem readNodeGivesTheNode : Obligations.ReadNodeGivesTheNode := by
  intro n s hb
  refine ⟨s.setRes (s.nodeReadout n), accept_always hb rfl, rfl, ?leaf, ?internal, ?zero⟩
  case leaf =>
    rintro y rfl hv hy
    rw [State.nodeReadout_leaf hv hy]
    refine ⟨?_, ?_, ?_, fun i hi => State.regValue_res_setRes_of_le s hi⟩ <;> rw [State.regValue_res_setRes]
    · exact s.toNat_nodeHeader false _
    · rfl
    · exact BitVec.toNat_setWidth_of_le (show 8 ≤ 32 by decide)
  case internal =>
    rintro k rfl hv hk
    rw [State.nodeReadout_internal hv hk]
    refine ⟨?_, ?_, ?_, ?_, fun i hi => State.regValue_res_setRes_of_le s hi⟩ <;> rw [State.regValue_res_setRes]
    · exact s.toNat_nodeHeader true _
    · rfl
    · exact BitVec.toNat_setWidth_of_le (show 9 ≤ 32 by decide)
    · exact BitVec.toNat_setWidth_of_le (show 9 ≤ 32 by decide)
  case zero =>
    intro h i
    exact State.regValue_res_setRes_of_le s (by simp [State.nodeReadout_eq_nil h])

end Sys2Proof.Machine
end

section
/-! A symbol's code as the path from the root to its leaf (spec/42_tree_builder.md rule R99,
spec/43_code_generator.md rule R104). -/

namespace Sys2Proof.Machine

theorem State.decodeGo_eq_child {s : State} {n : NodeIndex} {e : NodeEntry} (h : s.nodeAt n = some e) (b : Bool) :
    s.decodeGo n b = e.child b := by
  simp [State.decodeGo, h, NodeEntry.child]

/-- A path to a leaf that is not empty starts at a node with an entry, and goes on from its child. -/
theorem State.leafAt_cons_eq_some {s : State} {n : NodeIndex} {b : Bool} {p : List Bool} {y : Symbol}
    (h : s.leafAt n (b :: p) = some y) :
    ∃ e, s.nodeAt n = some e ∧ s.decodeGo n b = e.child b ∧ s.leafAt (e.child b) p = some y := by
  cases he : s.nodeAt n with
  | none =>
    rw [State.leafAt_cons_none he] at h
    cases h
  | some e => exact ⟨e, rfl, State.decodeGo_eq_child he b, by rwa [State.leafAt_cons_some he] at h⟩

/-- A decoder that follows a path to a leaf is at the leaf. -/
theorem State.foldl_decodeGo_of_leafAt {s : State} {y : Symbol} {p : List Bool} {n : NodeIndex}
    (h : s.leafAt n p = some y) : p.foldl s.decodeGo n = leafIndex y := by
  induction p generalizing n with
  | nil => exact argSymbol_eq_some.mp h
  | cons b p ih =>
    obtain ⟨e, _, hgo, hp⟩ := State.leafAt_cons_eq_some h
    rw [List.foldl_cons, hgo, ih hp]

section
variable {s : State} (hc : CountsAgree s) (ht : TreeAgrees s) (hv : s.treeV = true)
include hc hv

theorem CountsAgree.internalInTree_of_mem_treeNodes {n : NodeIndex} {e : NodeEntry} (hn : n ∈ s.treeNodes)
    (he : s.nodeAt n = some e) : s.internalInTree n = true := by
  obtain ⟨k, rfl, -⟩ := State.nodeAt_eq_some he
  rw [State.internalInTree_internalIndex hv, hc.nsym]
  exact (s.internalIndex_mem_treeNodes k.isLt).mp hn

include ht

/-- On a path from a node of the tree to a leaf, a decoder that has not followed all of it is at an internal node. -/
theorem TreeAgrees.internalInTree_on_path {y : Symbol} {p : List Bool} {n : NodeIndex} (hn : n ∈ s.treeNodes)
    (hp : s.leafAt n p = some y) {j : Nat} (hj : j < p.length) :
    s.internalInTree ((p.take j).foldl s.decodeGo n) = true := by
  induction p generalizing n j with
  | nil => exact absurd hj (Nat.not_lt_zero j)
  | cons b p ih =>
    obtain ⟨e, he, hgo, hp⟩ := State.leafAt_cons_eq_some hp
    cases j with
    | zero => exact hc.internalInTree_of_mem_treeNodes hv hn he
    | succ j =>
      rw [List.take_succ_cons, List.foldl_cons, hgo]
      exact ih (ht.child_mem hc hv hn he b).1 hp (Nat.lt_of_succ_lt_succ hj)

/-- With two symbols or more the root is the last node made (R99). -/
theorem TreeAgrees.root_eq_internalIndex (h2 : 2 ≤ s.nsym.toNat) : s.root = internalIndex (s.nsym.toNat - 2) := by
  have hn : s.nsym ≠ 0#9 := fun e => by simp [e] at h2
  obtain ⟨x, hx, -⟩ := hc.exists_root hn
  rw [ht.root hv, hx]
  exact hc.root_index hn hx h2

theorem TreeAgrees.toNat_root (h2 : 2 ≤ s.nsym.toNat) : s.root.toNat = 254 + s.nsym.toNat := by
  have hcount := hc.nsym
  have hle := s.length_countedSymbols_le
  rw [ht.root_eq_internalIndex hc hv h2, toNat_internalIndex (by omega)]
  omega

/-- With two symbols or more the assigned codes are the paths from the root to the leaves (R104). -/
theorem TreeAgrees.leafAt_of_mem_assignments (h2 : 2 ≤ s.nsym.toNat) {y : Symbol} {p : List Bool}
    (h : (y, p) ∈ s.assignments) : s.leafAt s.root p = some y := by
  have hroot : argSymbol s.root = none := argSymbol_of_gt (by rw [ht.toNat_root hc hv h2]; omega)
  simp only [State.assignments, hroot] at h
  obtain ⟨r, rfl, -, hr⟩ := State.mem_walk.mp h
  exact hr

end

/-- The stored code of a counted symbol is one the tree assigns (R105). -/
theorem CodesAgree.mem_assignments {s : State} (h : CodesAgree s) (hv : s.codesV = true) {y : Symbol}
    (hy : s.freqAt y ≠ 0#32) :
    (y, s.codeAt y) ∈ s.assignments ∧ (s.lenAt y).toNat = (s.codeAt y).length ∧ s.codeAt y ≠ [] := by
  have htable := h.table hv y
  cases ha : assignedCode s.assignments y with
  | none =>
    rw [ha] at htable
    exact absurd ((h.complete hv y).mp htable) hy
  | some p =>
    rw [ha] at htable
    obtain ⟨hlen, hcode, hne⟩ := htable
    exact hcode.symm ▸ ⟨mem_of_assignedCode ha, hlen, hne⟩

/-- Settles O30: the stored code is an assigned one, so a path from the root to the leaf, and along a path indices fall
from the root's 254 + NSYM. -/
theorem codeIsThePathToTheLeaf : Obligations.CodeIsThePathToTheLeaf := by
  intro s hinv hcodes h2 y hy
  have hv := hinv.phase.codesNeedTree hcodes
  obtain ⟨hmem, hlen, hne⟩ := hinv.codes.mem_assignments hcodes hy
  have hpath := hinv.tree.leafAt_of_mem_assignments hinv.counts hv h2 hmem
  have hroot := hinv.tree.root_mem hinv.counts hv
  have hdepth := (hinv.tree.leafAt_sound hinv.counts hv hroot hpath).2
  rw [hinv.tree.toNat_root hinv.counts hv h2] at hdepth
  refine ⟨State.foldl_decodeGo_of_leafAt hpath, State.codeBits_eq hlen, hlen.symm, fun j hj => ?_, ?_, by omega⟩
  · exact hinv.tree.internalInTree_on_path hinv.counts hv hroot hpath (hlen ▸ hj)
  · rw [hlen]
    exact List.length_pos_iff.mpr hne

end Sys2Proof.Machine
end

/-! # Proofs: spec/43_code_generator.md -/

section
/-! GENCODES, the single-symbol case, and that no code begins another (spec/43_code_generator.md rules R105, R106 and
R108). -/

namespace Sys2Proof.Machine

/-! ## The longest code (R30) -/

theorem State.longestCode_le_iff {s : State} {n : Nat} : s.longestCode ≤ n ↔ ∀ y : Symbol, (s.lenAt y).toNat ≤ n := by
  have hfold : ∀ (l : List Symbol) (m : Nat),
      l.foldl (fun m y => max m (s.lenAt y).toNat) m ≤ n ↔ m ≤ n ∧ ∀ y ∈ l, (s.lenAt y).toNat ≤ n := by
    intro l
    induction l with
    | nil => simp
    | cons y l ih => simp [ih, and_assoc]
  simp [State.longestCode, hfold]

theorem State.lenAt_le_longestCode (s : State) (y : Symbol) : (s.lenAt y).toNat ≤ s.longestCode :=
  State.longestCode_le_iff.mp le_rfl y

theorem State.exists_lenAt_eq_longestCode (s : State) : ∃ y : Symbol, (s.lenAt y).toNat = s.longestCode := by
  have hle : ∃ y : Symbol, s.longestCode ≤ (s.lenAt y).toNat := by
    refine List.foldlRecOn allSymbols _ (motive := fun m => ∃ y : Symbol, m ≤ (s.lenAt y).toNat)
      ⟨0#8, Nat.zero_le _⟩ fun m ⟨z, hz⟩ y _ => ?_
    rcases le_total m (s.lenAt y).toNat with h | h
    · exact ⟨y, max_le h le_rfl⟩
    · exact ⟨z, max_le hz (h.trans hz)⟩
  obtain ⟨y, hy⟩ := hle
  exact ⟨y, (s.lenAt_le_longestCode y).antisymm hy⟩

/-! ## GENCODES (R105) -/

theorem State.toNat_completeGencodes_wsum (s : State) :
    s.completeGencodes.wsum.toNat = s.completeGencodes.weightedLength :=
  Nat.mod_eq_of_lt (State.weightedLength_lt _)

theorem State.toNat_completeGencodes_maxLen (s : State) :
    s.completeGencodes.maxLen.toNat = s.completeGencodes.longestCode :=
  Nat.mod_eq_of_lt (State.longestCode_lt _)

theorem State.completeGencodes_lenAt_some {s : State} {y : Symbol} {p : List Bool}
    (h : assignedCode s.assignments y = some p) : s.completeGencodes.lenAt y = BitVec.ofNat 8 p.length := by
  rw [State.completeGencodes_lenAt, State.lenAt_withCodes, h]

theorem State.completeGencodes_lenAt_none {s : State} {y : Symbol} (h : assignedCode s.assignments y = none) :
    s.completeGencodes.lenAt y = 0#8 := by
  rw [State.completeGencodes_lenAt, State.lenAt_withCodes, h]

theorem State.completeGencodes_codeAt_some {s : State} {y : Symbol} {p : List Bool}
    (h : assignedCode s.assignments y = some p) : s.completeGencodes.codeAt y = p := by
  rw [State.completeGencodes_codeAt, State.codeAt_withCodes, h, Option.getD_some]

/-- Settles O29: the completion is `completeGencodes` of the accepted state, whose tree is that of s, and neither WSUM
nor MAXLEN.LEN is cut off. -/
theorem gencodesWritesTheTable : Obligations.GencodesWritesTheTable := by
  intro s hb hp
  have hcode : ∀ y, assignedCode (s.defer .gencodes 0#9).assignments y = assignedCode s.assignments y :=
    fun y => congrArg (assignedCode · y) (State.assignments_congr rfl rfl)
  have hdone : (s.defer .gencodes 0#9).engineStep = (s.defer .gencodes 0#9).completeGencodes :=
    State.engineStep_enabled (p := { op := .gencodes, arg := 0#9, fmt := s.fmt }) rfl rfl
  have hmax := (s.defer .gencodes 0#9).toNat_completeGencodes_maxLen
  refine ⟨s.defer .gencodes 0#9, (s.defer .gencodes 0#9).completeGencodes, ?accepted, rfl, hdone.symm, rfl,
    fun y p hy => ?coded, fun y hy => ?uncoded, ?wsum, fun y => ?bound, ?attained⟩
  case accepted => exact accept_ok hb (by simp [hp]) (by simp [legalIn, hp])
  case coded =>
    have hy := (hcode y).trans hy
    exact ⟨State.completeGencodes_lenAt_some hy, State.completeGencodes_codeAt_some hy⟩
  case uncoded => exact State.completeGencodes_lenAt_none ((hcode y).trans hy)
  case wsum => simp [State.toNat_completeGencodes_wsum, State.weightedLength]
  case bound => rw [hmax]; exact State.lenAt_le_longestCode _ y
  case attained =>
    obtain ⟨y, hy⟩ := (s.defer .gencodes 0#9).completeGencodes.exists_lenAt_eq_longestCode
    exact ⟨y, BitVec.eq_of_toNat_eq (hy.trans hmax.symm)⟩

/-! ## The single-symbol case (R106) -/

theorem State.assignments_of_leaf {s : State} {y : Symbol} (h : s.root = leafIndex y) :
    s.assignments = [(y, [false])] := by
  simp [State.assignments, h]

theorem State.assignments_of_internal {s : State} (h : argSymbol s.root = none) :
    s.assignments = s.walk 256 s.root [] := by
  simp [State.assignments, h]

theorem assignedCode_singleton (y z : Symbol) (p : List Bool) :
    assignedCode [(y, p)] z = if z = y then some p else none := by
  by_cases h : z = y
  · simp [assignedCode, h]
  · simp [assignedCode, List.lookup, beq_eq_false_iff_ne.mpr h, h]

section
variable {s : State} {y : Symbol} (h : s.root = leafIndex y)
include h

theorem State.assignedCode_of_leaf : assignedCode s.assignments y = some [false] := by
  rw [State.assignments_of_leaf h, assignedCode_singleton, if_pos rfl]

/-- A single leaf has the longest code, of one bit: no other symbol has a code. -/
theorem State.completeGencodes_maxLen_of_leaf : s.completeGencodes.maxLen = 1#8 := by
  have hlen := State.completeGencodes_lenAt_some (State.assignedCode_of_leaf h)
  apply BitVec.eq_of_toNat_eq
  rw [s.toNat_completeGencodes_maxLen]
  refine (State.longestCode_le_iff.mpr fun z => ?_).antisymm ?_
  · by_cases hz : z = y
    · rw [hz, hlen]
      exact le_rfl
    · have hnone : assignedCode s.assignments z = none := by
        rw [State.assignments_of_leaf h, assignedCode_singleton, if_neg hz]
      rw [State.completeGencodes_lenAt_none hnone]
      exact Nat.zero_le _
  · exact (congrArg BitVec.toNat hlen).ge.trans (State.lenAt_le_longestCode _ y)

end

/-- After a BUILD of a single counted symbol the root is its leaf (R101). -/
theorem CountsAgree.completeBuild_root_single {s : State} (hc : CountsAgree s) (hn : s.nsym = 1#9) {y : Symbol}
    (hy : s.countedSymbols = [y]) : s.completeBuild.root = leafIndex y := by
  have hne : s.nsym ≠ 0#9 := by rw [hn]; decide
  obtain ⟨x, hx, -⟩ := hc.exists_root hne
  obtain ⟨z, hz, hroot⟩ := hc.root_single hne hx hn
  obtain rfl : z = y := by simpa using hz.symm.trans hy
  rw [State.completeBuild_root, hx]
  exact hroot

/-- Settles O27: the one node left is the leaf, so GENCODES assigns "0" to it and nothing else. -/
theorem singleSymbolTree : Obligations.SingleSymbolTree := by
  intro s y hc hy
  have hn : s.nsym = 1#9 := BitVec.eq_of_toNat_eq (hc.nsym.trans (congrArg List.length hy))
  have hroot := hc.completeBuild_root_single hn hy
  have hcode := State.assignedCode_of_leaf hroot
  exact ⟨hroot, by simp [State.single, hn], State.completeGencodes_lenAt_some hcode,
    State.completeGencodes_codeAt_some hcode, State.completeGencodes_maxLen_of_leaf hroot⟩

/-! ## No code begins another (R108) -/

/-- A path to a leaf cannot be continued to another leaf, as a leaf has no children. -/
theorem State.leafAt_prefix {s : State} {y z : Symbol} {p q : List Bool} {n : NodeIndex}
    (hp : s.leafAt n p = some y) (hq : s.leafAt n q = some z) (hpq : p <+: q) : y = z := by
  obtain ⟨r, rfl⟩ := hpq
  induction p generalizing n with
  | nil => exact (State.leafAt_of_leaf hp hq).1.symm
  | cons b p ih =>
    obtain ⟨e, he, -, hp⟩ := State.leafAt_cons_eq_some hp
    rw [List.cons_append, State.leafAt_cons_some he] at hq
    exact ih hp hq

/-- No code that GENCODES assigns begins another symbol's, whatever NODE holds: there is one code, or they are paths from
the root to leaves. -/
theorem State.assignments_prefix {s : State} {y z : Symbol} {p q : List Bool} (hy : (y, p) ∈ s.assignments)
    (hz : (z, q) ∈ s.assignments) (hpq : p <+: q) : y = z := by
  cases hr : argSymbol s.root with
  | some w =>
    rw [State.assignments_of_leaf (argSymbol_eq_some.mp hr), List.mem_singleton] at hy hz
    cases hy
    cases hz
    rfl
  | none =>
    rw [State.assignments_of_internal hr, State.mem_walk] at hy hz
    obtain ⟨_, rfl, -, hy⟩ := hy
    obtain ⟨_, rfl, -, hz⟩ := hz
    exact State.leafAt_prefix hy hz hpq

/-- The code of a symbol with LEN > 0 is one the tree assigns. -/
theorem CodesAgree.codeBits_mem_assignments {s : State} (h : CodesAgree s) (hv : s.codesV = true) {y : Symbol}
    (hy : s.lenAt y ≠ 0#8) : (y, s.codeBits y) ∈ s.assignments := by
  obtain ⟨hmem, hlen, -⟩ := h.mem_assignments hv (mt (h.complete hv y).mpr hy)
  rwa [State.codeBits_eq hlen]

/-- Settles O31: the stored codes are assigned ones, and no assigned code begins another symbol's. -/
theorem codesArePrefixFree : Obligations.CodesArePrefixFree := by
  intro s hinv hv y z hne hy hz hprefix
  exact hne (State.assignments_prefix (hinv.codes.codeBits_mem_assignments hv hy)
    (hinv.codes.codeBits_mem_assignments hv hz) hprefix)

end Sys2Proof.Machine
end

section
/-! READ_CODE (spec/43_code_generator.md rule R107). -/

namespace Sys2Proof.Machine

/-- A big-endian number's bit k is its k-th bit from the end. -/
theorem testBit_bitsToNat (bs : List Bool) (k : Nat) : (bitsToNat bs).testBit k = bs.reverse.getD k false := by
  induction bs using List.reverseRecOn generalizing k with
  | nil => simp [bitsToNat]
  | append_singleton bs b ih =>
    have hsnoc : bitsToNat (bs ++ [b]) = 2 * bitsToNat bs + b.toNat := by simp [bitsToNat]
    have hb : b.toNat < 2 := b.toNat_lt
    rw [hsnoc, List.reverse_concat]
    cases k with
    | zero => cases b <;> simp [Nat.testBit_zero]
    | succ k =>
      have hhalf : (2 * bitsToNat bs + b.toNat) / 2 = bitsToNat bs := by omega
      rw [Nat.testBit_succ, hhalf, ih, List.getD_cons_succ]

/-- Code bit 32 j + r stands in bit 31 − r of the j-th word (R107). -/
theorem State.getLsbD_codeWord (s : State) (y : Symbol) (j : Nat) {r : Nat} (hr : r < 32) :
    (s.codeWord y j).getLsbD (31 - r) =
      (decide (32 * j + r < (s.lenAt y).toNat) && s.codeBit y (32 * j + r)) := by
  have hlow : 31 - r < 32 := by omega
  have hback : 31 - (31 - r) = r := by omega
  rw [State.codeWord, BitVec.getLsbD_ofNat, testBit_bitsToNat, List.getD_reverse _ (by simpa using hlow)]
  simp [hlow, hback, List.getD_eq_getElem?_getD, hr]

@[simp] theorem argSymbol_symbolArg (y : Symbol) : argSymbol (symbolArg y) = some y := argSymbol_leafIndex y

theorem State.codeReadout_of_code {s : State} {y : Symbol} (hv : s.codesV = true) (hy : s.lenAt y ≠ 0#8) :
    s.codeReadout (symbolArg y) = (1#1 ++ 0#23 ++ s.lenAt y) :: (List.range 8).map (s.codeWord y) := by
  simp [State.codeReadout, hv, hy]

/-- Without a code table, above 255 and for a symbol without a code, READ_CODE gives no words. -/
theorem State.codeReadout_eq_nil {s : State} {a : Arg}
    (h : s.codesV = false ∨ 255 < a.toNat ∨ (∃ y : Symbol, a = symbolArg y ∧ s.lenAt y = 0#8)) :
    s.codeReadout a = [] := by
  rcases h with hv | ha | ⟨y, rfl, hy⟩
  · simp only [State.codeReadout, hv]
    cases argSymbol a <;> rfl
  · simp only [State.codeReadout, argSymbol_of_gt ha]
  · simp [State.codeReadout, hy]

theorem State.readValue_res (s : State) (i : Fin 9) : s.readValue (Reg.res i).index = s.regValue (.res i) := by
  rw [State.readValue, Reg.ofIndex_index]

/-- The register READ_CODE gives code bit i in, RES(1 + i div 32), at its word index. -/
theorem State.readValue_setRes_codeBit (s : State) (w : Word) (f : Nat → Word) (i : Fin 256) :
    (s.setRes (w :: (List.range 8).map f)).readValue (BitVec.ofNat 6 (18 + i.val / 32)) = f (i.val / 32) := by
  have hj : i.val / 32 < 8 := by omega
  have hindex : BitVec.ofNat 6 (18 + i.val / 32) = (Reg.res ⟨i.val / 32 + 1, by omega⟩).index :=
    congrArg (BitVec.ofNat 6) (show 18 + i.val / 32 = 17 + (i.val / 32 + 1) by omega)
  rw [hindex, State.readValue_res, State.regValue_res_setRes]
  simp [hj]

/-- Settles O32: READ_CODE runs in every phase, and its readout is the header with the eight words of the code, or
nothing. -/
theorem readCodeGivesTheCode : Obligations.ReadCodeGivesTheCode := by
  intro a s hb
  refine ⟨s.setRes (s.codeReadout a), accept_always hb rfl, rfl, ?code, fun h i => ?zero⟩
  case code =>
    rintro y rfl hv hy
    rw [State.codeReadout_of_code hv hy]
    refine ⟨?_, fun i => ?_⟩
    · rw [State.regValue_res_setRes]
      exact toNat_append_eq _ _
    · rw [State.readValue_setRes_codeBit, State.getLsbD_codeWord s y _ (Nat.mod_lt _ (by decide)), Nat.div_add_mod]
  case zero => exact State.regValue_res_setRes_of_le s (by simp [State.codeReadout_eq_nil h])

end Sys2Proof.Machine
end

/-! # Proofs: spec/44_encoder.md -/

section
/-! ENCODE and FLUSH: acceptance, errors and completion, and what changes the encoder's statistics
(spec/44_encoder.md rules R111 to R114). -/

namespace Sys2Proof.Machine

/-! ## Acceptance (R111, R112, R114) -/

section
variable {s : State} (hb : s.busy = false) (hq : s.phase = .coded ∨ s.phase = .encoding)
include hb hq

theorem exec_encode_of_precheck_none {a : Arg} (h : encodePrecheck a s = none) :
    exec (.encode a) s = .next (s.defer .encode a) := by
  rw [exec_eq_accept (.encode a) s nofun, precheckOf, h]
  rcases hq with hq | hq <;> exact accept_ok hb (by simp [hq]) (by simp [legalIn, hq])

theorem exec_encode_of_precheck_some {a : Arg} {e : ErrorCode} (h : encodePrecheck a s = some e) :
    exec (.encode a) s = .next (s.raise e (encodeWord (.encode a))) := by
  rw [exec_eq_accept (.encode a) s nofun, precheckOf, h]
  rcases hq with hq | hq <;> exact accept_precheck hb (by simp [hq]) (by simp [legalIn, hq])

theorem exec_flush_of_passTwo : exec .flush s = .next (s.defer .flush 0#9) := by
  rcases hq with hq | hq <;> exact accept_ok hb (by simp [hq]) (by simp [legalIn, hq])

end

theorem encodePrecheck_of_code {a : Arg} {s : State} (ha : a.toNat ≤ 255) (hl : s.lenAt (a.setWidth 8) ≠ 0#8) :
    encodePrecheck a s = if s.encN = maxWord then some .countOverflow else none := by
  simp only [encodePrecheck, argSymbol_of_le ha, if_neg hl]

theorem encodePrecheck_of_no_code {a : Arg} {s : State} (h : 255 < a.toNat ∨ s.lenAt (a.setWidth 8) = 0#8) :
    encodePrecheck a s = some .unknownSymbol := by
  rcases Nat.lt_or_ge 255 a.toNat with ha | ha
  · simp only [encodePrecheck, argSymbol_of_gt ha]
  · simp only [encodePrecheck, argSymbol_of_le ha, if_pos (h.resolve_left (Nat.not_lt.mpr ha))]

/-- Settles O35: the precheck reports a missing code first, and the bound of ENC_N after it. -/
theorem encodeErrors : Obligations.EncodeErrors := fun _ _ hb hq =>
  ⟨fun h => ⟨_, exec_encode_of_precheck_some hb hq (encodePrecheck_of_no_code h), rfl, rfl, rfl⟩,
    fun ha hl hn =>
      ⟨_, exec_encode_of_precheck_some hb hq ((encodePrecheck_of_code ha hl).trans (if_pos hn)), rfl, rfl, rfl⟩⟩

/-! ## Completion (R111, R114) -/

/-- Settles O34: the completion is `completeEncode` of the accepted state, and emission does not read PEND. -/
theorem encodeEmitsTheCode : Obligations.EncodeEmitsTheCode := by
  intro a s hb hq ha hl hn
  have hpre : encodePrecheck a s = none := (encodePrecheck_of_code ha hl).trans (if_neg hn)
  have hphase : (if s.phase = .coded then Phase.encoding else s.phase) = .encoding := by
    rcases hq with hq | hq <;> simp [hq]
  have hlatch : (s.defer .encode a).latchFormat s.fmt =
      { s.latchFormat s.fmt with pend := some { op := .encode, arg := a, fmt := s.fmt } } := rfl
  have hbits : (s.defer .encode a).codeBits (argLow a) = s.codeBits (a.setWidth 8) := rfl
  refine ⟨_, exec_encode_of_precheck_none hb hq hpre, rfl, fun hroom =>
    ⟨_, (s.latchFormat s.fmt).emitBits (s.codeBits (a.setWidth 8)), rfl, rfl, ?_⟩⟩
  rw [State.engineStep_enabled (s := s.defer .encode a) rfl hroom, State.complete_encode, State.completeEncode, hlatch,
    hbits, State.emitBits_withPend]
  obtain ⟨_, _, _, hframe⟩ := (s.latchFormat s.fmt).emitBits_frame (s.codeBits (a.setWidth 8))
  rw [hframe, ← hphase]
  rfl

/-- Settles O37: the completion is `completeFlush` of the accepted state, in the two cases of `drainAcc`. -/
theorem flushEndsPassTwo : Obligations.FlushEndsPassTwo := by
  intro s hb hq
  refine ⟨_, exec_flush_of_passTwo hb hq, rfl, fun hroom => ⟨_, _, rfl, rfl, fun hf hn => ?_, fun h => ?_⟩⟩ <;>
    rw [State.engineStep_enabled (s := s.defer .flush 0#9) rfl hroom, State.complete_flush, State.completeFlush]
  · rw [State.drainAcc_partial (s := (s.defer .flush 0#9).latchFormat s.fmt) hf hn]
    rfl
  · rw [State.drainAcc_empty (s := (s.defer .flush 0#9).latchFormat s.fmt) h]
    rfl

/-! ## The statistics (R113) -/

/-- Settles O36: of all that a step can write only the start of a run and ENCODE's completion concern ENC_N and
OUTBITS. -/
theorem onlyEncodeCountsSymbols : Obligations.OnlyEncodeCountsSymbols := by
  intro s t h
  cases step_effect h with
  | started _ ht _ => exact .inr (.inl ⟨ht, ht.encN, ht.outBits⟩)
  | quiet _ ht => obtain ⟨_, _, _, _, _, _, _, rfl⟩ := ht; exact .inl ⟨rfl, rfl⟩
  | raised w v e _ _ ht => obtain ⟨_, _, rfl⟩ := ht; exact .inl ⟨rfl, rfl⟩
  | counted w a _ _ _ _ _ _ ht => obtain ⟨_, _, rfl⟩ := ht; exact .inl ⟨rfl, rfl⟩
  | deferred w op a _ _ _ _ _ ht => obtain ⟨_, _, rfl⟩ := ht; exact .inl ⟨rfl, rfl⟩
  | completed p hn hp _ ht =>
    obtain ⟨_, rfl⟩ := ht
    obtain ⟨op, a, f⟩ := p
    cases op with
    | build => exact .inl ⟨rfl, rfl⟩
    | gencodes => exact .inl ⟨rfl, rfl⟩
    | encode => exact .inr (.inr ⟨hn, _, hp, rfl, State.completeEncode_encN _ _, State.completeEncode_outBits _ _⟩)
    | flush => exact .inl ⟨State.completeFlush_encN _ _, State.completeFlush_outBits _ _⟩

end Sys2Proof.Machine
end

section
/-! The code-bit stream under the completions of ENCODE and FLUSH, and under the host's reads (spec/44_encoder.md rules
R110 and R115). -/

namespace Sys2Proof.Machine

/-! ## ENCODE (R110) -/

theorem State.latchFormat_of_ne {s : State} (h : s.phase ≠ .coded) (f : Format) : s.latchFormat f = s := by
  simp [State.latchFormat, h]

theorem State.emitted_eq_nil {s : State} (hfifo : s.fifo = []) (hread : s.outRead = []) (hn : s.accN = 0#3) :
    s.emitted = [] := by
  cases hf : s.encFmt <;> simp [State.emitted, State.payloadBits, State.payload, State.accBits, hf, hfifo, hread, hn]

/-- The latch of the form leaves the stream: in CODED it is empty, and in ENCODING the form is latched. -/
theorem EncoderAgrees.emitted_latchFormat {s : State} (h : EncoderAgrees s)
    (hq : s.phase = .coded ∨ s.phase = .encoding) (f : Format) : (s.latchFormat f).emitted = s.emitted := by
  rcases hq with hq | hq
  · have hn := h.before (.inr (.inr hq))
    rw [State.emitted_eq_nil (s := s.latchFormat f) hn.fifo hn.outRead hn.accN,
      State.emitted_eq_nil hn.fifo hn.outRead hn.accN]
  · rw [State.latchFormat_of_ne (by simp [hq])]

theorem EncoderAgrees.emitted_completeEncode {s : State} (h : EncoderAgrees s)
    (hq : s.phase = .coded ∨ s.phase = .encoding) (p : Pending) :
    (s.completeEncode p).emitted = s.emitted ++ s.codeBits (argLow p.arg) := by
  change ((s.latchFormat p.fmt).emitBits (s.codeBits (argLow p.arg))).emitted = _
  rw [State.emitBits_emitted, h.emitted_latchFormat hq]

theorem State.hostRead_emitted (s : State) (i : RegIndex) : (s.hostRead i).emitted = s.emitted :=
  State.emitted_congr (s.fifoRead_hostRead i).payload_eq (by constructor <;> simp)

/-- Settles O39: the completion emits the code after the latch, and a read moves a byte within the payload. -/
theorem encodeAppendsToTheStream : Obligations.EncodeAppendsToTheStream := by
  refine ⟨fun s p h hq hp hop hroom => ?_, fun s => s.hostRead_emitted _⟩
  have hready : s.completionEnabled p = true := by rwa [State.completionEnabled, hop]
  have hdone : s.complete p = s.completeEncode p := by rw [State.complete, hop]
  rw [State.engineStep_enabled hp hready, hdone, h.emitted_completeEncode hq]

/-! ## FLUSH (R115) -/

/-- ACC's n bits moved to the top of a byte, with 0 bits below them (R114). -/
theorem byteBits_shiftLeft (acc : Byte) {n : Nat} (hn : n ≤ 8) : byteBits (acc <<< (8 - n)) =
    (List.range n).map (fun i => acc.getLsbD (n - 1 - i)) ++ List.replicate (8 - n) false := by
  apply List.ext_getElem
  · simp [hn]
  · intro i hi _
    have hi : i < 8 := by simpa using hi
    have hlow : 7 - i < 8 := by omega
    rcases Nat.lt_or_ge i n with h | h
    · have hpos : 7 - i - (8 - n) = n - 1 - i := by omega
      have hkept : ¬ 7 - i < 8 - n := by omega
      simp [byteBits, h, hpos, hlow, hkept]
    · have hpad : 7 - i < 8 - n := by omega
      simp [byteBits, List.getElem_append, Nat.not_lt.mpr h, hpad]

/-- In packed form the last byte holds the bits of ACC and the pad (R114, R115). -/
theorem State.payload_drainAcc_packed {s : State} (h : s.encFmt = .packed) :
    s.drainAcc.payload.flatMap byteBits = s.emitted ++ List.replicate ((8 - s.accN.toNat) % 8) false := by
  by_cases hn : s.accN = 0#3
  · rw [State.drainAcc_empty (.inr hn)]
    simp [State.emitted, State.payloadBits, h, State.accBits_of_accN_zero hn, hn]
  · have hpos : 0 < s.accN.toNat := BitVec.toNat_pos_of_ne_zero hn
    have hlt : s.accN.toNat < 8 := s.accN.isLt
    have hpad : (8 - s.accN.toNat) % 8 = 8 - s.accN.toNat := Nat.mod_eq_of_lt (by omega)
    rw [State.drainAcc_partial h hn, hpad]
    simp [State.emitted, State.payloadBits, State.payload, h, State.accBits, byteBits_shiftLeft s.acc hlt.le]

/-- Settles O42: the bits in ACC are those beyond whole bytes, and in textual form there are none to drain. -/
theorem flushPadsTheLastByte : Obligations.FlushPadsTheLastByte := by
  intro s p hq
  have hflush : (s.completeFlush p).payload = s.drainAcc.payload := by
    change (s.latchFormat p.fmt).drainAcc.payload = _
    rw [State.latchFormat_of_ne (by simp [hq])]
  rw [hflush]
  refine ⟨fun hf => ?_, fun hf => by rw [State.drainAcc_empty (.inl hf)]⟩
  have hmod : s.emitted.length % 8 = s.accN.toNat := by
    have : s.accN.toNat < 8 := s.accN.isLt
    rw [State.length_emitted_packed hf]
    omega
  rw [State.payload_drainAcc_packed hf, hmod]

/-! ## The length of the output (R110, R115) -/

/-- Settles O58: a step leaves the output's length, starts a run, or completes an ENCODE or a FLUSH. -/
theorem outputLengthIsKept : Obligations.OutputLengthIsKept := fun _ _ hs he ho h => ho.step hs he h

end Sys2Proof.Machine
end

section
/-! Decoding by the tree gives back the encoded symbols (spec/44_encoder.md rule R122). -/

namespace Sys2Proof.Machine

theorem State.decodeFrom_cons (s : State) (n : NodeIndex) (b : Bool) (bs : List Bool) :
    s.decodeFrom n (b :: bs) =
      match argSymbol (s.decodeGo n b) with
      | some y => y :: s.decodeFrom s.root bs
      | none => s.decodeFrom (s.decodeGo n b) bs := rfl

/-- From an internal node, the path to a leaf decodes to the leaf's symbol, and decoding starts again at the root. -/
theorem State.decodeFrom_path {s : State} {y : Symbol} {p : List Bool} {n : NodeIndex} (hn : argSymbol n = none)
    (hp : s.leafAt n p = some y) (bs : List Bool) : s.decodeFrom n (p ++ bs) = y :: s.decodeFrom s.root bs := by
  induction p generalizing n with
  | nil => cases hn.symm.trans hp
  | cons b p ih =>
    obtain ⟨e, -, hgo, hp⟩ := State.leafAt_cons_eq_some hp
    rw [List.cons_append, State.decodeFrom_cons, hgo]
    cases hc : argSymbol (e.child b) with
    | none => exact ih hc hp
    | some z =>
      obtain ⟨rfl, rfl⟩ := State.leafAt_of_leaf hc hp
      rfl

/-- An assigned code decodes to its symbol: it is a path from the root, or the one bit of a single-leaf tree. -/
theorem State.decodeFrom_root_of_mem_assignments {s : State} {y : Symbol} {p : List Bool} (h : (y, p) ∈ s.assignments)
    (bs : List Bool) : s.decodeFrom s.root (p ++ bs) = y :: s.decodeFrom s.root bs := by
  cases hr : argSymbol s.root with
  | some z =>
    rw [State.assignments_of_leaf (argSymbol_eq_some.mp hr), List.mem_singleton] at h
    cases h
    have hstay : s.decodeGo s.root false = s.root := by simp [State.decodeGo, s.nodeAt_eq_none hr]
    rw [List.singleton_append, State.decodeFrom_cons, hstay, hr]
  | none =>
    rw [State.assignments_of_internal hr, State.mem_walk] at h
    obtain ⟨_, rfl, -, hp⟩ := h
    exact State.decodeFrom_path hr hp bs

/-- The codes of a list of symbols decode to the list. -/
theorem CodesAgree.decodeBits_codes {s : State} (h : CodesAgree s) (hv : s.codesV = true) {ys : List Symbol}
    (hys : ∀ y ∈ ys, s.lenAt y ≠ 0#8) : s.decodeBits (ys.flatMap s.codeBits) = ys := by
  induction ys with
  | nil => rfl
  | cons y ys ih =>
    obtain ⟨hy, hys⟩ := List.forall_mem_cons.mp hys
    rw [List.flatMap_cons]
    exact (State.decodeFrom_root_of_mem_assignments (h.codeBits_mem_assignments hv hy) _).trans (congrArg _ (ih hys))

end Sys2Proof.Machine
end

section
/-! Pass 2: what a step of it can do, and what its stream and statistics are (spec/44_encoder.md rules R110 to R115). -/

namespace Sys2Proof.Machine

/-! ## The steps of pass 2 -/

theorem State.encodedByStep_of_host {s : State} (h : s.nextTurn = .host) : s.encodedByStep = [] :=
  State.encodedByStep_of_ne (by simp [h])

/-- A step that leaves PEND completes nothing, so it encodes nothing. -/
theorem encodedByStep_of_pend_eq {s t : State} (h : step s = .next t) (hp : t.pend = s.pend) :
    s.encodedByStep = [] := by
  cases step_cases h with
  | reset hn => exact State.encodedByStep_of_ne (by simp [hn])
  | engineIdle _ he => exact State.encodedByStep_idle he
  | completed p _ hs _ ht =>
    rw [ht, State.complete_pend, hs] at hp
    cases hp
  | read _ _ hn => exact State.encodedByStep_of_host hn
  | wrote _ _ hn => exact State.encodedByStep_of_host hn
  | command _ _ hw => exact State.encodedByStep_of_host hw.1
  | illegal _ _ hw => exact State.encodedByStep_of_host hw.1

/-- What a step of pass 2 can do. -/
inductive PassTwoStep (s t : State) : Prop where
  /-- A host access without an effect on the run but a pop, the acceptance of a command, or an idle turn. -/
  | kept (henc : EncoderFrame s t) (hread : FifoRead s t) (hcodes : CodesFrame s t) (htotal : t.total = s.total)
      (hnone : s.encodedByStep = [])
  /-- The completion of an ENCODE. -/
  | encoded (p : Pending) (turns : List Turn) (hp : s.pend = some p) (hop : p.op = .encode)
      (hq : s.phase = .coded ∨ s.phase = .encoding) (ht : t = { s.completeEncode p with turns := turns })
      (hone : s.encodedByStep = [argLow p.arg])
  /-- The completion of a FLUSH. -/
  | flushed (p : Pending) (turns : List Turn) (hq : s.phase = .coded ∨ s.phase = .encoding)
      (ht : t = { s.completeFlush p with turns := turns }) (hnone : s.encodedByStep = [])

/-- The inversion of a step within pass 2: what starts a run, ends it by an error, counts or prepares is none. -/
theorem PhaseAgrees.passTwoStep {s t : State} (hs : PhaseAgrees s) (hstep : step s = .next t)
    (hin : s.phase.inPassTwo = true) (hrun : t.phase.inPassTwo = true) : PassTwoStep s t := by
  cases step_effect hstep with
  | started _ ht _ => simp [ht.phase, Phase.inPassTwo] at hrun
  | quiet hread ht =>
    have hpend : t.pend = s.pend := by obtain ⟨_, _, _, _, _, _, _, rfl⟩ := ht; rfl
    have hnone := encodedByStep_of_pend_eq hstep hpend
    obtain ⟨_, _, _, _, _, _, _, rfl⟩ := ht
    exact .kept ⟨rfl, rfl, rfl, rfl, rfl, rfl⟩ hread ⟨rfl, rfl, rfl, rfl, rfl, rfl, rfl, rfl⟩ rfl hnone
  | raised w v e _ _ ht =>
    obtain ⟨_, _, rfl⟩ := ht
    simp [Phase.inPassTwo] at hrun
  | counted w a _ _ _ _ hp => simp [hp, Phase.inPassTwo] at hin
  | deferred w op a hw _ _ _ _ ht =>
    have hnone : s.encodedByStep = [] := State.encodedByStep_of_host hw.1
    obtain ⟨_, _, rfl⟩ := ht
    exact .kept ⟨rfl, rfl, rfl, rfl, rfl, rfl⟩ (.inl ⟨rfl, rfl⟩) ⟨rfl, rfl, rfl, rfl, rfl, rfl, rfl, rfl⟩ rfl hnone
  | completed p hn hp he ht =>
    have hcode := State.encodedByStep_completed hn hp he
    obtain ⟨turns, ht⟩ := ht
    cases hs.completionCase hp with
    | build _ hq => simp [hq, Phase.inPassTwo] at hin
    | gencodes _ hq => simp [hq, Phase.inPassTwo] at hin
    | encode hop hq hc =>
      rw [hc] at ht
      exact .encoded p turns hp hop hq ht (hcode.trans (if_pos hop))
    | flush hop hq hc =>
      rw [hc] at ht
      exact .flushed p turns hq ht (hcode.trans (if_neg (by simp [hop])))

/-! ## The stream of pass 2 -/

theorem State.payloadBits_prefix_emitted (s : State) : s.payloadBits <+: s.emitted := by
  unfold State.emitted
  split
  · exact List.prefix_append _ _
  · exact List.prefix_rfl

theorem State.emitted_of_accN_zero {s : State} (h : s.accN = 0#3) : s.emitted = s.payloadBits := by
  unfold State.emitted
  split
  · rw [State.accBits_of_accN_zero h, List.append_nil]
  · rfl

/-- FLUSH's last byte goes after the stream, in either form. -/
theorem State.emitted_prefix_drainAcc (s : State) : s.emitted <+: s.drainAcc.emitted := by
  cases hf : s.encFmt with
  | packed =>
    refine List.IsPrefix.trans ?_ s.drainAcc.payloadBits_prefix_emitted
    have hbits : s.drainAcc.payloadBits = s.drainAcc.payload.flatMap byteBits := by simp [State.payloadBits, hf]
    rw [hbits, State.payload_drainAcc_packed hf]
    exact List.prefix_append _ _
  | textual => rw [State.drainAcc_empty (.inl hf)]

theorem EncoderAgrees.emitted_prefix_completeFlush {s : State} (h : EncoderAgrees s)
    (hq : s.phase = .coded ∨ s.phase = .encoding) (p : Pending) : s.emitted <+: (s.completeFlush p).emitted := by
  change s.emitted <+: (s.latchFormat p.fmt).drainAcc.emitted
  rw [← h.emitted_latchFormat hq p.fmt]
  exact State.emitted_prefix_drainAcc _

/-- Until FLUSH the stream has OUTBITS bits. -/
theorem OutputAgrees.length_emitted {s : State} (he : EncoderAgrees s) (h : OutputAgrees s)
    (hq : s.phase = .coded ∨ s.phase = .encoding) : s.emitted.length = s.outBits.toNat := by
  rw [← he.emitted_latchFormat hq .packed]
  exact h.length_emitted_latchFormat he hq .packed

theorem CodesFrame.lenAt {s t : State} (h : CodesFrame s t) (y : Symbol) : t.lenAt y = s.lenAt y := by
  simp only [State.lenAt, h.len]

theorem CodesFrame.codeBits {s t : State} (h : CodesFrame s t) : t.codeBits = s.codeBits := by
  have hbit : t.codeBit = s.codeBit := by
    funext y i
    simp only [State.codeBit, State.codeAt, h.code]
  funext y
  simp only [State.codeBits, hbit, h.lenAt]

theorem CodesFrame.trans {s t u : State} (h : CodesFrame s t) (h' : CodesFrame t u) : CodesFrame s u :=
  ⟨h'.codesV.trans h.codesV, h'.freq.trans h.freq, h'.root.trans h.root, h'.node.trans h.node, h'.len.trans h.len,
    h'.code.trans h.code, h'.wsum.trans h.wsum, h'.maxLen.trans h.maxLen⟩

theorem State.length_flatMap_codeBits (s : State) (ys : List Symbol) :
    (ys.flatMap s.codeBits).length = (ys.map fun y => (s.lenAt y).toNat).sum := by
  simp [List.length_flatMap]

/-- What pass 2 from s has done when it has encoded ys: the table and the counts are those of s, every symbol of ys has
a code, the statistics count ys, and the stream begins with the codes of ys. -/
structure HasEncoded (s : State) (ys : List Symbol) (t : State) : Prop where
  codes : CodesFrame s t
  total : t.total = s.total
  coded : ∀ y ∈ ys, s.lenAt y ≠ 0#8
  encN : t.encN = BitVec.ofNat 32 ys.length
  outBits : t.outBits.toNat = (ys.flatMap s.codeBits).length
  stream : ys.flatMap s.codeBits <+: t.emitted

theorem HasEncoded.start {s : State} (h : NothingEncoded s) : HasEncoded s [] s where
  codes := ⟨rfl, rfl, rfl, rfl, rfl, rfl, rfl, rfl⟩
  total := rfl
  coded := nofun
  encN := h.encN
  outBits := congrArg BitVec.toNat h.outBits
  stream := List.nil_prefix

theorem HasEncoded.kept {s t u : State} {ys : List Symbol} (h : HasEncoded s ys t) (henc : EncoderFrame t u)
    (hread : FifoRead t u) (hcodes : CodesFrame t u) (htotal : u.total = t.total) : HasEncoded s ys u where
  codes := h.codes.trans hcodes
  total := htotal.trans h.total
  coded := h.coded
  encN := henc.encN.trans h.encN
  outBits := (congrArg BitVec.toNat henc.outBits).trans h.outBits
  stream := by rw [State.emitted_congr hread.payload_eq henc]; exact h.stream

/-- What has been encoded does not depend on the turns to come. -/
theorem HasEncoded.withTurns {s t : State} {ys : List Symbol} (h : HasEncoded s ys t) (turns : List Turn) :
    HasEncoded s ys { t with turns := turns } :=
  h.kept ⟨rfl, rfl, rfl, rfl, rfl, rfl⟩ (.inl ⟨rfl, rfl⟩) ⟨rfl, rfl, rfl, rfl, rfl, rfl, rfl, rfl⟩ rfl

theorem HasEncoded.completeFlush {s t : State} {ys : List Symbol} (h : HasEncoded s ys t) (he : EncoderAgrees t)
    (hq : t.phase = .coded ∨ t.phase = .encoding) (p : Pending) : HasEncoded s ys (t.completeFlush p) where
  codes := h.codes.trans (by constructor <;> simp)
  total := (t.completeFlush_total p).trans h.total
  coded := h.coded
  encN := (t.completeFlush_encN p).trans h.encN
  outBits := (congrArg BitVec.toNat (t.completeFlush_outBits p)).trans h.outBits
  stream := h.stream.trans (he.emitted_prefix_completeFlush hq p)

/-- An ENCODE's completion: until then the stream is the codes of ys and nothing more, and it grows by one code. -/
theorem HasEncoded.completeEncode {s t : State} {ys : List Symbol} (h : HasEncoded s ys t) (he : EncoderAgrees t)
    (ho : OutputAgrees t) (hq : t.phase = .coded ∨ t.phase = .encoding) {p : Pending} (hp : t.pend = some p)
    (hop : p.op = .encode) : HasEncoded s (ys ++ [argLow p.arg]) (t.completeEncode p) := by
  obtain ⟨-, hlen, -⟩ := he.pend p hp hop
  have hcodes : (ys ++ [argLow p.arg]).flatMap s.codeBits = ys.flatMap s.codeBits ++ t.codeBits (argLow p.arg) := by
    rw [h.codes.codeBits, List.flatMap_append, List.flatMap_singleton]
  have hstream : ys.flatMap s.codeBits = t.emitted :=
    h.stream.eq_of_length (h.outBits.symm.trans (ho.length_emitted he hq).symm)
  constructor
  case codes => exact h.codes.trans (by constructor <;> simp)
  case total => exact (t.completeEncode_total p).trans h.total
  case coded =>
    refine List.forall_mem_append.mpr ⟨h.coded, List.forall_mem_singleton.mpr ?_⟩
    rwa [← h.codes.lenAt]
  case encN => rw [State.completeEncode_encN, h.encN, List.length_append, BitVec.ofNat_add]; rfl
  case outBits =>
    rw [State.completeEncode_outBits, he.toNat_outBits_add, h.outBits, hcodes, List.length_append,
      State.codeBits_length]
  case stream => rw [he.emitted_completeEncode hq, hcodes, hstream]

/-- Pass 2 starts in CODED. -/
theorem PassTwo.phase_start {s t : State} {ys : List Symbol} (h : PassTwo s ys t) : s.phase = .coded := by
  induction h with
  | start h => exact h
  | next _ _ _ ih => exact ih

theorem PassTwo.inv {s t : State} {ys : List Symbol} (h : PassTwo s ys t) (hs : Inv s) : Inv t :=
  h.keeps invariantIsKept hs

/-- By induction over the steps of pass 2. -/
theorem PassTwo.hasEncoded {s t : State} {ys : List Symbol} (h : PassTwo s ys t) (hs : Inv s) : HasEncoded s ys t := by
  induction h with
  | start hq => exact .start (hs.encoder.before (.inr (.inr hq)))
  | next before hstep hrun ih =>
    have hinv := before.inv hs
    cases hinv.phase.passTwoStep hstep before.inPassTwo hrun with
    | kept henc hread hcodes htotal hnone =>
      rw [hnone, List.append_nil]
      exact ih.kept henc hread hcodes htotal
    | encoded p turns hp hop hq ht hone =>
      rw [hone, ht]
      exact (ih.completeEncode hinv.encoder hinv.output hq hp hop).withTurns turns
    | flushed p turns hq ht hnone =>
      rw [hnone, List.append_nil, ht]
      exact (ih.completeFlush hinv.encoder hq p).withTurns turns

/-- In DONE the first OUTBITS bits of the payload are the codes of the symbols encoded (R115). -/
theorem HasEncoded.outputBits_of_done {s t : State} {ys : List Symbol} (h : HasEncoded s ys t) (he : EncoderAgrees t)
    (hd : t.phase = .done) : t.outputBits = ys.flatMap s.codeBits := by
  have hstream := h.stream
  rw [State.emitted_of_accN_zero (he.done hd)] at hstream
  rw [State.outputBits, h.outBits]
  exact (List.prefix_iff_eq_take.mp hstream).symm

/-- Settles O44: an assigned code decodes to its symbol, and at the end of pass 2 the output is the codes of the symbols
encoded, by the table and the tree of its start. -/
theorem roundTrip : Obligations.RoundTrip := by
  refine fun s hs hv => ⟨fun ys hys => hs.codes.decodeBits_codes hv hys, fun ys t hpass hd => ?_⟩
  have h := hpass.hasEncoded hs
  have ht := hpass.inv hs
  have hout := h.outputBits_of_done ht.encoder hd
  refine ⟨hout, (congrArg List.length hout).trans h.outBits.symm, ?_⟩
  rw [State.decodeOutput, hout, ← h.codes.codeBits]
  exact ht.codes.decodeBits_codes (h.codes.codesV.trans hv) fun y hy => by rw [h.codes.lenAt]; exact h.coded y hy

end Sys2Proof.Machine
end

section
/-! The statistics of a run (spec/44_encoder.md rules R119 to R121). -/

namespace Sys2Proof.Machine

/-! ## The weighted average (R121) -/

/-- A sum along a list of symbols, by how often each symbol occurs in it. -/
theorem sum_map_eq_sum_count (f : Symbol → Nat) (ys : List Symbol) :
    (ys.map f).sum = (allSymbols.map fun y => ys.count y * f y).sum := by
  induction ys with
  | nil => simp only [List.map_nil, List.count_nil, Nat.zero_mul, List.sum_map_zero, List.sum_nil]
  | cons z zs ih =>
    have h := sum_map_of_eq_except nodup_allSymbols (mem_allSymbols z) (f := fun y => zs.count y * f y)
      (g := fun y => (z :: zs).count y * f y) fun y hy => by rw [List.count_cons_of_ne hy.symm]
    simp only [List.count_cons_self, Nat.succ_mul] at h
    rw [List.map_cons, List.sum_cons, ih]
    omega

section
variable {s : State} {ys : List Symbol} (h : ∀ y : Symbol, ys.count y = (s.freqAt y).toNat)
include h

theorem sum_lenAt_of_counts : (ys.map fun y => (s.lenAt y).toNat).sum = s.weightedLength := by
  rw [sum_map_eq_sum_count]
  simp only [h]
  rfl

theorem CountsAgree.length_of_counts (hc : CountsAgree s) : ys.length = s.total.toNat := by
  have hones := sum_map_eq_sum_count (fun _ => 1) ys
  simp only [h, Nat.mul_one, List.map_const', List.sum_replicate, smul_eq_mul] at hones
  rw [hones, hc.total]
  rfl

end

/-- With a tree something has been counted. -/
theorem TreeAgrees.total_pos {s : State} (ht : TreeAgrees s) (hc : CountsAgree s) (hv : s.treeV = true) :
    0 < s.total.toNat := by
  obtain ⟨y, hy⟩ := List.exists_mem_of_ne_nil _ (ht.countedSymbols_ne_nil hc hv)
  have hpos : 0 < (s.freqAt y).toNat := BitVec.toNat_pos_of_ne_zero ((s.mem_countedSymbols y).mp hy)
  exact hc.total ▸ hpos.trans_le (s.freqAt_le_freqSum y)

theorem fraction_of_pos (num : Nat) {den : Nat} (h : 0 < den) : fraction num den = some ((num : Rat) / (den : Rat)) :=
  if_neg h.ne'

/-- Settles O45: pass 2 has counted the stream's symbols and code lengths, which its symbol counts determine. -/
theorem weightedAverage : Obligations.WeightedAverage := by
  refine ⟨fun s t ys hs hpass hcount => ?_, fun s ys hc hcount =>
    ⟨sum_lenAt_of_counts hcount, hc.length_of_counts hcount⟩⟩
  have h := hpass.hasEncoded hs
  obtain ⟨htree, hcodes⟩ := hs.phase.valid (.inl hpass.phase_start)
  have hencN : t.encN = t.total := by
    rw [h.encN, hs.counts.length_of_counts hcount, h.total, BitVec.ofNat_toNat, BitVec.setWidth_eq]
  have hout : t.outBits = t.wsum := BitVec.eq_of_toNat_eq <| by
    rw [h.outBits, State.length_flatMap_codeBits, sum_lenAt_of_counts hcount, h.codes.wsum, hs.codes.wsum hcodes]
  have hpos : 0 < t.total.toNat := h.total ▸ hs.tree.total_pos hs.counts htree
  refine ⟨hencN, hout, ?_, h.total, h.codes.wsum, State.freqAt_congr h.codes.freq⟩
  rw [State.averageLength, if_pos (h.codes.codesV.trans hcodes), fraction_of_pos _ hpos, hencN, hout]

/-! ## The report's figures (R120) -/

theorem State.toNat_inBits (s : State) : s.inBits.toNat = 8 * s.encN.toNat := by
  have := s.encN.isLt
  simp only [State.inBits, BitVec.toNat_mul, BitVec.toNat_setWidth, BitVec.toNat_ofNat]
  omega

/-- Settles O46: each figure is a fraction of the block's integers with a denominator that is not 0. -/
theorem reportFigures : Obligations.ReportFigures := by
  intro s
  refine ⟨s.toNat_inBits, fun hn => ?_, fun hout => ?_, fun hv ht => ?_⟩
  · have hden : 0 < 8 * s.encN.toNat := Nat.mul_pos (by decide) (BitVec.toNat_pos_of_ne_zero hn)
    simp [State.compressionRatio, State.outputPercentage, s.toNat_inBits, fraction_of_pos _ hden]
  · simp [State.inputOutputRatio, s.toNat_inBits, fraction_of_pos _ (BitVec.toNat_pos_of_ne_zero hout)]
  · have hpos := BitVec.toNat_pos_of_ne_zero ht
    have havg : s.averageLength = some ((s.wsum.toNat : Rat) / (s.total.toNat : Rat)) :=
      (if_pos hv).trans (fraction_of_pos _ hpos)
    have hne : (s.total.toNat : Rat) ≠ 0 := by exact_mod_cast hpos.ne'
    refine ⟨havg, ?_⟩
    rw [State.compressionPercentage, havg, Option.map_some]
    congr 1
    field_simp

end Sys2Proof.Machine
end

/-! # Proofs: spec/60_exceptions.md -/

section
/-! The error entry, the first error of a run, and what PHASE = ERROR accepts (spec/60_exceptions.md rules R124 to
R129). -/

namespace Sys2Proof.Machine

/-! ## Error entry (R128) -/

/-- Settles O12: the first error of the run is kept, and the error entry's writes are all there are. -/
theorem errorEntry : Obligations.ErrorEntry := by
  refine fun s e w => ⟨s.raise e w, rfl, fun h => ?first, fun h => ?later, rfl, rfl, rfl, rfl, rfl, rfl⟩
  case first => exact ⟨if_pos h, if_pos h⟩
  case later => exact ⟨if_neg h, if_neg h⟩

/-! ## The first cause in the priority order (R124, R125) -/

section
variable {i : Instr} {s : State} (hi : i ≠ .clear) (hb : s.busy = false) (hp : s.phase ≠ .error)
  (hl : legalIn i s.phase = true)
include hi hb hp hl

theorem exec_of_precheck_some {c : ErrorCode} (hc : precheckOf i s = some c) :
    exec i s = .next (s.raise c (encodeWord i)) := by
  rw [exec_eq_accept i s hi, hc]
  exact accept_precheck hb hp hl

/-- No command that passes its precheck writes ERR or ERR_CMD. -/
theorem exec_of_precheck_none (hc : precheckOf i s = none) :
    ∃ t, exec i s = .next t ∧ t.errCode = s.errCode ∧ t.errCmd = s.errCmd := by
  rw [exec_eq_accept i s hi, hc]
  refine ⟨_, accept_ok hb hp hl, ?_⟩
  cases i with
  | count a => exact ⟨s.countArg_errCode a, s.countArg_errCmd a⟩
  | clear => exact absurd rfl hi
  | _ => exact ⟨rfl, rfl⟩

end

theorem firstError_of_busy {s : State} (hb : s.busy = true) (w : Word) : firstError w s = .cmdWhileBusy := if_pos hb

theorem firstError_of_illegal {w : Word} {s : State} {why : Illegal} (hb : s.busy = false)
    (hd : decode w = .illegal why) : firstError w s = .illegalCmd := by
  simp [firstError, hb, hd]

theorem firstError_of_command {w : Word} {s : State} {i : Instr} (hb : s.busy = false) (hd : decode w = .command i) :
    firstError w s = if legalIn i s.phase then (precheckOf i s).getD .none else .sequence := by
  simp [firstError, hb, hd]

/-- Outside ERROR, acceptance raises the first cause of the word if there is one, and else writes neither ERR nor
ERR_CMD. -/
theorem acceptWord_firstError {w : Word} {s : State} (hw : decode w ≠ .command .clear) (hp : s.phase ≠ .error) :
    (firstError w s ≠ .none ∧ acceptWord w s = .next (s.raise (firstError w s) w)) ∨
    (firstError w s = .none ∧ ∃ t, acceptWord w s = .next t ∧ t.errCode = s.errCode ∧ t.errCmd = s.errCmd) := by
  cases hb : s.busy with
  | true =>
    rw [firstError_of_busy hb]
    exact .inl ⟨nofun, acceptWord_busy hb hw⟩
  | false =>
    unfold acceptWord
    cases hd : decode w with
    | illegal why =>
      rw [firstError_of_illegal hb hd]
      exact .inl ⟨nofun, acceptIllegal_ok hb hp w⟩
    | command i =>
      have hi : i ≠ .clear := fun e => hw (hd.trans (congrArg _ e))
      have hword : encodeWord i = w := (decodeExactlyInvertsEncode w i).mp hd
      rw [firstError_of_command hb hd]
      subst hword
      cases hl : legalIn i s.phase with
      | false => exact .inl ⟨nofun, exec_out_of_phase hb hp hl⟩
      | true =>
        cases hc : precheckOf i s with
        | some c => exact .inl ⟨precheckOf_ne_none hc, exec_of_precheck_some hi hb hp hl hc⟩
        | none => exact .inr ⟨rfl, exec_of_precheck_none hi hb hp hl hc⟩

/-! ## PHASE = ERROR (R127, R129) -/

section
variable {s t : State} (hb : s.busy = false) (hp : s.phase = .error)
include hb hp

/-- In ERROR a command starts a new run, as CLEAR, or writes RES at most. -/
theorem ExecCase.in_error {i : Instr} (h : ExecCase i s t) :
    i = .clear ∧ t = s.clear ∨ ∃ res, t = { s with res := res } := by
  cases h with
  | cleared hi ht => exact .inl ⟨hi, ht⟩
  | raised e _ hne =>
    rcases hne with hbusy | hphase
    · simp [hb] at hbusy
    · exact absurd hp hphase
  | noEffect _ ht => exact .inr ⟨s.res, ht⟩
  | counted a _ _ hcount => simp [hp] at hcount
  | readout ws _ _ ht => exact .inr ⟨_, ht⟩
  | deferred op a _ hlegal => cases op <;> simp [hp, pendingLegal] at hlegal

theorem exec_no_effect_in_error {i : Instr} (hr : runsInError i = false) : exec i s = .next s := by
  have hi : i ≠ .clear := by rintro rfl; cases hr
  rw [exec_eq_accept i s hi, accept_in_error hb hp, hr]
  rfl

theorem acceptIllegal_in_error (w : Word) : acceptIllegal w s = .next s := by
  simp [acceptIllegal, hb, hp]

theorem acceptWord_in_error {w : Word} (hw : decode w ≠ .command .clear) (h : acceptWord w s = .next t) :
    ∃ res, t = { s with res := res } := by
  unfold acceptWord at h
  cases hd : decode w with
  | command i =>
    rw [hd] at h
    exact ((exec_cases h).in_error hb hp).resolve_left fun e => hw (hd.trans (congrArg _ e.1))
  | illegal why =>
    rw [hd] at h
    cases (acceptIllegal_in_error hb hp w).symm.trans h
    exact ⟨s.res, rfl⟩

end

/-- Settles O13: NOP, CLEAR and the readouts are the commands of `runsInError`, and no other word passes the test of
PHASE. -/
theorem errorPhaseCommands : Obligations.ErrorPhaseCommands := by
  intro s hp hb
  refine ⟨accept_always hb rfl, ⟨s.clear, rfl, s.runStart_clear⟩,
    fun a => ⟨accept_always hb rfl, accept_always hb rfl, accept_always hb rfl⟩, fun w hw => ?_⟩
  unfold acceptWord
  cases hd : decode w with
  | command i => exact exec_no_effect_in_error hb hp (hw i hd)
  | illegal why => exact acceptIllegal_in_error hb hp w

/-- Settles O11: outside ERROR the first cause is raised, and in ERROR nothing is. -/
theorem firstErrorIsReported : Obligations.FirstErrorIsReported := by
  intro w s hw
  by_cases hp : s.phase = .error
  · obtain ⟨t, ht⟩ := acceptWord_next w s
    refine ⟨t, ht, fun _ hne => absurd hp hne, fun _ hb => ?_⟩
    obtain ⟨_, rfl⟩ := acceptWord_in_error hb hp hw ht
    exact ⟨rfl, rfl⟩
  · rcases acceptWord_firstError hw hp with ⟨hne, ht⟩ | ⟨hnone, t, ht, hcode, hcmd⟩
    · exact ⟨_, ht, fun h0 _ => ⟨if_pos h0, fun _ => ⟨if_pos h0, rfl⟩, fun h => absurd h hne⟩,
        fun h => absurd h hp⟩
    · exact ⟨t, ht, fun h0 _ => ⟨by rw [hcode, h0, hnone], fun h => absurd hnone h, fun _ => hcmd⟩,
        fun h => absurd h hp⟩

/-- Settles O14: with BUSY = 0 the engine has no completion, and of the host's accesses only a write of CLEAR writes
PHASE or ERR in ERROR. -/
theorem onlyClearAndResetLeaveError : Obligations.OnlyClearAndResetLeaveError := by
  intro s t hp hb h
  cases step_cases h with
  | reset hn ht =>
    subst ht
    exact .inr (.inl ⟨State.runStart_applyReset _, hn⟩)
  | engineIdle _ _ ht =>
    subst ht
    exact .inl ⟨hp, rfl, rfl⟩
  | completed p _ hpend => simp [State.busy, hpend] at hb
  | read i prog _ _ ht =>
    rw [State.hostRead_eq] at ht
    subst ht
    exact .inl ⟨hp, rfl, rfl⟩
  | wrote f prog _ _ ht =>
    subst ht
    exact .inl ⟨hp, rfl, rfl⟩
  | command w i hw hd ht =>
    rcases ExecCase.in_error (s := s.endTurn.nextStatement) hb hp ht with ⟨rfl, rfl⟩ | ⟨_, rfl⟩
    · exact .inr (.inr ⟨State.runStart_clear _, rfl, w, hw, hd⟩)
    · exact .inl ⟨hp, rfl, rfl⟩
  | illegal w _ _ _ ht =>
    cases (acceptIllegal_in_error (s := s.endTurn.nextStatement) hb hp w).symm.trans ht
    exact .inl ⟨hp, rfl, rfl⟩

end Sys2Proof.Machine
end

section
/-! What the registers read (spec/10_state.md rules R15 to R41 and R48, spec/60_exceptions.md rule R123). -/

namespace Sys2Proof.Machine

/-- The two registers of a 64-bit quantity are its halves, the low one first (R48). -/
theorem toNat_halves (v : DoubleWord) : (highHalf v).toNat * 2 ^ 32 + (lowHalf v).toNat = v.toNat := by
  simp only [highHalf, lowHalf, BitVec.extractLsb'_toNat]
  omega

theorem State.toNat_rootWord (s : State) : s.rootWord.toNat = (if s.treeV then 2 ^ 31 else 0) + s.root.toNat := by
  simp only [State.rootWord, toNat_append_eq]
  cases s.treeV <;> rfl

theorem State.toNat_maxLenWord (s : State) :
    s.maxLenWord.toNat = (if s.codesV then 2 ^ 31 else 0) + s.maxLen.toNat := by
  simp only [State.maxLenWord, toNat_append_eq]
  cases s.codesV <;> rfl

/-- Settles O48: each word index names its register, and each field stands at its place in the register's value. -/
theorem registerMap : Obligations.RegisterMap := by
  intro s
  refine ⟨?ctrl, rfl, rfl, ?err, rfl, ?nsym, s.toNat_rootWord, s.toNat_maxLenWord, toNat_halves s.wsum, rfl, ?inBits,
    toNat_halves s.outBits, s.readValue_res, rfl⟩
  case ctrl =>
    change (s.fmt.bit.setWidth 32).toNat = _
    cases s.fmt <;> rfl
  case err =>
    change (s.errCode.bits.setWidth 32).toNat = _
    cases s.errCode <;> rfl
  case nsym => exact BitVec.toNat_setWidth_of_le (by decide)
  case inBits => exact (toNat_halves s.inBits).trans s.toNat_inBits

end Sys2Proof.Machine
end
